-- ==== Sys2Proof/Word.lean ====
section
/-! DEFINITION. The words and numbers of the machine (spec 00_scope.md R7 to R11, R20). -/

namespace Sys2Proof

/-- One byte: a general register, a timer, a byte of memory (R7, R44). -/
abbrev Byte := BitVec 8

/-- Sixteen bits: the program counter, the index register, a stack slot, an instruction word (R33, R36, R37, R100). -/
abbrev Word := BitVec 16

/-- The 12-bit address field NNN of an instruction (R101, R102). -/
abbrev Addr12 := BitVec 12

/-- The number of a general register V0 to VF (R30, R102). -/
abbrev Reg := Fin 16

/-- The number of a key, 0x0 to 0xF (R11). -/
abbrev Key := Fin 16

end Sys2Proof
end

