-- ==== Sys2Proof/Syntax.lean ====
section
/-! DEFINITION. The instructions: one constructor for each of the 34 patterns of spec 30_encoding.md R104, named
`op` and the spec's own pattern (R108). `x` and `y` are register numbers, `nn` an 8-bit immediate, `nnn` a 12-bit
address, `n` a row count (R102). -/

namespace Sys2Proof

/-- The instruction set of R104, in the order of spec/opcode_table.json. -/
inductive Instr where
  /-- 00E0: clear display (R290). -/
  | op00E0
  /-- 00EE: return (R160). -/
  | op00EE
  /-- 1NNN: jump (R161). -/
  | op1NNN (nnn : Addr12)
  /-- 2NNN: call (R162). -/
  | op2NNN (nnn : Addr12)
  /-- 3XNN: skip if Vx equals NN (R163). -/
  | op3XNN (x : Reg) (nn : Byte)
  /-- 4XNN: skip if Vx differs from NN (R164). -/
  | op4XNN (x : Reg) (nn : Byte)
  /-- 5XY0: skip if Vx equals Vy (R165). -/
  | op5XY0 (x y : Reg)
  /-- 6XNN: load immediate (R205). -/
  | op6XNN (x : Reg) (nn : Byte)
  /-- 7XNN: add immediate, no flag (R206). -/
  | op7XNN (x : Reg) (nn : Byte)
  /-- 8XY0: copy (R207). -/
  | op8XY0 (x y : Reg)
  /-- 8XY1: bitwise OR (R208). -/
  | op8XY1 (x y : Reg)
  /-- 8XY2: bitwise AND (R209). -/
  | op8XY2 (x y : Reg)
  /-- 8XY3: bitwise XOR (R210). -/
  | op8XY3 (x y : Reg)
  /-- 8XY4: add with carry (R211). -/
  | op8XY4 (x y : Reg)
  /-- 8XY5: subtract with borrow (R212). -/
  | op8XY5 (x y : Reg)
  /-- 8XY6: shift right (R213). -/
  | op8XY6 (x y : Reg)
  /-- 8XY7: reverse subtract (R214). -/
  | op8XY7 (x y : Reg)
  /-- 8XYE: shift left (R215). -/
  | op8XYE (x y : Reg)
  /-- 9XY0: skip if Vx differs from Vy (R166). -/
  | op9XY0 (x y : Reg)
  /-- ANNN: load index (R250). -/
  | opANNN (nnn : Addr12)
  /-- BNNN: jump with offset V0 (R167). -/
  | opBNNN (nnn : Addr12)
  /-- CXNN: random AND NN (R216). -/
  | opCXNN (x : Reg) (nn : Byte)
  /-- DXYN: draw sprite of n rows (R291). -/
  | opDXYN (x y : Reg) (n : Nat)
  /-- EX9E: skip if key Vx is pressed (R320). -/
  | opEX9E (x : Reg)
  /-- EXA1: skip if key Vx is not pressed (R321). -/
  | opEXA1 (x : Reg)
  /-- FX07: read delay timer (R322). -/
  | opFX07 (x : Reg)
  /-- FX0A: block for key (R323). -/
  | opFX0A (x : Reg)
  /-- FX15: write delay timer (R324). -/
  | opFX15 (x : Reg)
  /-- FX18: write sound timer (R325). -/
  | opFX18 (x : Reg)
  /-- FX1E: add to index (R251). -/
  | opFX1E (x : Reg)
  /-- FX29: font glyph address (R252). -/
  | opFX29 (x : Reg)
  /-- FX33: BCD store (R253). -/
  | opFX33 (x : Reg)
  /-- FX55: register dump (R254). -/
  | opFX55 (x : Reg)
  /-- FX65: register load (R255). -/
  | opFX65 (x : Reg)
  deriving DecidableEq, Repr

end Sys2Proof
end

