-- ==== Sys2Proof/WellFormed.lean ====
section
/-! DEFINITION. Which instructions are well formed. Register numbers, immediates and addresses are bounded by their
types; the row count of DXYN is a number and its bound is checked here (spec 30_encoding.md R102: N is 0 to 15). -/

namespace Sys2Proof

/-- The instruction's operands are values its encoding admits (R102). -/
def Instr.wf (i : Instr) : Bool :=
  match i with
  | .op00E0 => true
  | .op00EE => true
  | .op1NNN _ => true
  | .op2NNN _ => true
  | .op3XNN _ _ => true
  | .op4XNN _ _ => true
  | .op5XY0 _ _ => true
  | .op6XNN _ _ => true
  | .op7XNN _ _ => true
  | .op8XY0 _ _ => true
  | .op8XY1 _ _ => true
  | .op8XY2 _ _ => true
  | .op8XY3 _ _ => true
  | .op8XY4 _ _ => true
  | .op8XY5 _ _ => true
  | .op8XY6 _ _ => true
  | .op8XY7 _ _ => true
  | .op8XYE _ _ => true
  | .op9XY0 _ _ => true
  | .opANNN _ => true
  | .opBNNN _ => true
  | .opCXNN _ _ => true
  | .opDXYN _ _ n => decide (n ≤ 15)
  | .opEX9E _ => true
  | .opEXA1 _ => true
  | .opFX07 _ => true
  | .opFX0A _ => true
  | .opFX15 _ => true
  | .opFX18 _ => true
  | .opFX1E _ => true
  | .opFX29 _ => true
  | .opFX33 _ => true
  | .opFX55 _ => true
  | .opFX65 _ => true

end Sys2Proof
end

