-- ==== Sys2Proof/Decode.lean ====
section
/-! DEFINITION. The decoder and the encoder (spec 30_encoding.md). Decoding is a pure function of the word (R135). -/

namespace Sys2Proof

/-! ### The fields of a word (R101) -/

/-- `C = w[15:12]`, the opcode class. -/
def fieldC (w : Word) : BitVec 4 := w.extractLsb' 12 4

/-- `X = w[11:8]`, a register number. -/
def fieldX (w : Word) : Reg := (w.extractLsb' 8 4).toFin

/-- `Y = w[7:4]`, a register number. -/
def fieldY (w : Word) : Reg := (w.extractLsb' 4 4).toFin

/-- `N = w[3:0]`, the low nibble. -/
def fieldN (w : Word) : BitVec 4 := w.extractLsb' 0 4

/-- `NN = w[7:0]`, the low byte. -/
def fieldNN (w : Word) : Byte := w.extractLsb' 0 8

/-- `NNN = w[11:0]`, the low 12 bits. -/
def fieldNNN (w : Word) : Addr12 := w.extractLsb' 0 12

/-! ### The decoder (R104, R105, R110) -/

/-- The class 8 instructions, selected by the low nibble (R104). -/
def decodeClass8 (x y : Reg) (n : BitVec 4) : Option Instr :=
  match n with
  | 0x0#4 => some (.op8XY0 x y)
  | 0x1#4 => some (.op8XY1 x y)
  | 0x2#4 => some (.op8XY2 x y)
  | 0x3#4 => some (.op8XY3 x y)
  | 0x4#4 => some (.op8XY4 x y)
  | 0x5#4 => some (.op8XY5 x y)
  | 0x6#4 => some (.op8XY6 x y)
  | 0x7#4 => some (.op8XY7 x y)
  | 0xE#4 => some (.op8XYE x y)
  | _ => none

/-- The class F instructions, selected by the low byte (R104). -/
def decodeClassF (x : Reg) (nn : Byte) : Option Instr :=
  match nn with
  | 0x07#8 => some (.opFX07 x)
  | 0x0A#8 => some (.opFX0A x)
  | 0x15#8 => some (.opFX15 x)
  | 0x18#8 => some (.opFX18 x)
  | 0x1E#8 => some (.opFX1E x)
  | 0x29#8 => some (.opFX29 x)
  | 0x33#8 => some (.opFX33 x)
  | 0x55#8 => some (.opFX55 x)
  | 0x65#8 => some (.opFX65 x)
  | _ => none

/-- The instruction a word stands for, or none where the word is unrecognized (R105: exact pattern match, every bit a
row fixes must match). -/
def decodeWord (w : Word) : Option Instr :=
  let x := fieldX w
  let y := fieldY w
  let n := fieldN w
  let nn := fieldNN w
  let nnn := fieldNNN w
  match fieldC w with
  | 0x0#4 => (match nnn with | 0x0E0#12 => some .op00E0 | 0x0EE#12 => some .op00EE | _ => none)
  | 0x1#4 => some (.op1NNN nnn)
  | 0x2#4 => some (.op2NNN nnn)
  | 0x3#4 => some (.op3XNN x nn)
  | 0x4#4 => some (.op4XNN x nn)
  | 0x5#4 => (match n with | 0x0#4 => some (.op5XY0 x y) | _ => none)
  | 0x6#4 => some (.op6XNN x nn)
  | 0x7#4 => some (.op7XNN x nn)
  | 0x8#4 => decodeClass8 x y n
  | 0x9#4 => (match n with | 0x0#4 => some (.op9XY0 x y) | _ => none)
  | 0xA#4 => some (.opANNN nnn)
  | 0xB#4 => some (.opBNNN nnn)
  | 0xC#4 => some (.opCXNN x nn)
  | 0xD#4 => some (.opDXYN x y n.toNat)
  | 0xE#4 => (match nn with | 0x9E#8 => some (.opEX9E x) | 0xA1#8 => some (.opEXA1 x) | _ => none)
  | 0xF#4 => decodeClassF x nn
  | _ => none

/-- Why bytes are not decoded to an instruction. -/
inductive DecodeReject where
  /-- Fewer than two bytes are left. -/
  | truncated
  /-- The word matches no pattern of R104: `Unknown(w)` of R110. -/
  | unknownOpcode (w : Word)
  deriving DecidableEq, Repr

/-- The big-endian word of two bytes, the byte at the lower address first (R76). -/
def wordOfBytes (hi lo : Byte) : Word := hi ++ lo

/-- The decoder on bytes, total: the instruction at their head and the bytes after it, or the named rejection. -/
def decode (bytes : List Byte) : Except DecodeReject (Instr × List Byte) :=
  match bytes with
  | hi :: lo :: rest =>
    match decodeWord (wordOfBytes hi lo) with
    | some i => .ok (i, rest)
    | none => .error (.unknownOpcode (wordOfBytes hi lo))
  | _ => .error .truncated

/-! ### The encoder (R103, R104) -/

/-- Format ADDR: `cccc nnnn nnnn nnnn`. -/
def encAddr (c : BitVec 4) (nnn : Addr12) : Word := c ++ nnn

/-- Format REGIMM: `cccc xxxx nnnn nnnn`; REGFN is the same layout with a fixed low byte. -/
def encRegImm (c : BitVec 4) (x : Reg) (nn : Byte) : Word := c ++ ((BitVec.ofFin x : BitVec 4) ++ nn)

/-- Format REGREG: `cccc xxxx yyyy ffff`; DRAW is the same layout with the row count in the low nibble. -/
def encRegReg (c : BitVec 4) (x y : Reg) (f : BitVec 4) : Word :=
  c ++ ((BitVec.ofFin x : BitVec 4) ++ ((BitVec.ofFin y : BitVec 4) ++ f))

/-- The word of an instruction, from its format and match value (R103, R104). -/
def encode (i : Instr) : Word :=
  match i with
  | .op00E0 => 0x00E0#16
  | .op00EE => 0x00EE#16
  | .op1NNN nnn => encAddr 0x1#4 nnn
  | .op2NNN nnn => encAddr 0x2#4 nnn
  | .op3XNN x nn => encRegImm 0x3#4 x nn
  | .op4XNN x nn => encRegImm 0x4#4 x nn
  | .op5XY0 x y => encRegReg 0x5#4 x y 0x0#4
  | .op6XNN x nn => encRegImm 0x6#4 x nn
  | .op7XNN x nn => encRegImm 0x7#4 x nn
  | .op8XY0 x y => encRegReg 0x8#4 x y 0x0#4
  | .op8XY1 x y => encRegReg 0x8#4 x y 0x1#4
  | .op8XY2 x y => encRegReg 0x8#4 x y 0x2#4
  | .op8XY3 x y => encRegReg 0x8#4 x y 0x3#4
  | .op8XY4 x y => encRegReg 0x8#4 x y 0x4#4
  | .op8XY5 x y => encRegReg 0x8#4 x y 0x5#4
  | .op8XY6 x y => encRegReg 0x8#4 x y 0x6#4
  | .op8XY7 x y => encRegReg 0x8#4 x y 0x7#4
  | .op8XYE x y => encRegReg 0x8#4 x y 0xE#4
  | .op9XY0 x y => encRegReg 0x9#4 x y 0x0#4
  | .opANNN nnn => encAddr 0xA#4 nnn
  | .opBNNN nnn => encAddr 0xB#4 nnn
  | .opCXNN x nn => encRegImm 0xC#4 x nn
  | .opDXYN x y n => encRegReg 0xD#4 x y (BitVec.ofNat 4 n)
  | .opEX9E x => encRegImm 0xE#4 x 0x9E#8
  | .opEXA1 x => encRegImm 0xE#4 x 0xA1#8
  | .opFX07 x => encRegImm 0xF#4 x 0x07#8
  | .opFX0A x => encRegImm 0xF#4 x 0x0A#8
  | .opFX15 x => encRegImm 0xF#4 x 0x15#8
  | .opFX18 x => encRegImm 0xF#4 x 0x18#8
  | .opFX1E x => encRegImm 0xF#4 x 0x1E#8
  | .opFX29 x => encRegImm 0xF#4 x 0x29#8
  | .opFX33 x => encRegImm 0xF#4 x 0x33#8
  | .opFX55 x => encRegImm 0xF#4 x 0x55#8
  | .opFX65 x => encRegImm 0xF#4 x 0x65#8

/-- The two bytes of an instruction as memory holds them, the high byte at the lower address (R76, R100). -/
def encodeBytes (i : Instr) : List Byte := [(encode i).extractLsb' 8 8, (encode i).extractLsb' 0 8]

/-! ### The opcode map as masks (R104) -/

/-- One row of the opcode map: `w` is this row's instruction exactly when `w & mask = pattern`. -/
structure OpcodeRow where
  pattern : Word
  mask : Word
  deriving DecidableEq, Repr

/-- The word matches the row (R104). -/
def OpcodeRow.matchesWord (r : OpcodeRow) (w : Word) : Bool := (w &&& r.mask) == r.pattern

/-- The row of R104 that an instruction is listed in. -/
def Instr.row (i : Instr) : OpcodeRow :=
  match i with
  | .op00E0 => ⟨0x00E0#16, 0xFFFF#16⟩
  | .op00EE => ⟨0x00EE#16, 0xFFFF#16⟩
  | .op1NNN _ => ⟨0x1000#16, 0xF000#16⟩
  | .op2NNN _ => ⟨0x2000#16, 0xF000#16⟩
  | .op3XNN _ _ => ⟨0x3000#16, 0xF000#16⟩
  | .op4XNN _ _ => ⟨0x4000#16, 0xF000#16⟩
  | .op5XY0 _ _ => ⟨0x5000#16, 0xF00F#16⟩
  | .op6XNN _ _ => ⟨0x6000#16, 0xF000#16⟩
  | .op7XNN _ _ => ⟨0x7000#16, 0xF000#16⟩
  | .op8XY0 _ _ => ⟨0x8000#16, 0xF00F#16⟩
  | .op8XY1 _ _ => ⟨0x8001#16, 0xF00F#16⟩
  | .op8XY2 _ _ => ⟨0x8002#16, 0xF00F#16⟩
  | .op8XY3 _ _ => ⟨0x8003#16, 0xF00F#16⟩
  | .op8XY4 _ _ => ⟨0x8004#16, 0xF00F#16⟩
  | .op8XY5 _ _ => ⟨0x8005#16, 0xF00F#16⟩
  | .op8XY6 _ _ => ⟨0x8006#16, 0xF00F#16⟩
  | .op8XY7 _ _ => ⟨0x8007#16, 0xF00F#16⟩
  | .op8XYE _ _ => ⟨0x800E#16, 0xF00F#16⟩
  | .op9XY0 _ _ => ⟨0x9000#16, 0xF00F#16⟩
  | .opANNN _ => ⟨0xA000#16, 0xF000#16⟩
  | .opBNNN _ => ⟨0xB000#16, 0xF000#16⟩
  | .opCXNN _ _ => ⟨0xC000#16, 0xF000#16⟩
  | .opDXYN _ _ _ => ⟨0xD000#16, 0xF000#16⟩
  | .opEX9E _ => ⟨0xE09E#16, 0xF0FF#16⟩
  | .opEXA1 _ => ⟨0xE0A1#16, 0xF0FF#16⟩
  | .opFX07 _ => ⟨0xF007#16, 0xF0FF#16⟩
  | .opFX0A _ => ⟨0xF00A#16, 0xF0FF#16⟩
  | .opFX15 _ => ⟨0xF015#16, 0xF0FF#16⟩
  | .opFX18 _ => ⟨0xF018#16, 0xF0FF#16⟩
  | .opFX1E _ => ⟨0xF01E#16, 0xF0FF#16⟩
  | .opFX29 _ => ⟨0xF029#16, 0xF0FF#16⟩
  | .opFX33 _ => ⟨0xF033#16, 0xF0FF#16⟩
  | .opFX55 _ => ⟨0xF055#16, 0xF0FF#16⟩
  | .opFX65 _ => ⟨0xF065#16, 0xF0FF#16⟩

/-- The opcode map of R104, in its order. -/
def opcodeTable : List OpcodeRow :=
  [⟨0x00E0#16, 0xFFFF#16⟩, ⟨0x00EE#16, 0xFFFF#16⟩, ⟨0x1000#16, 0xF000#16⟩, ⟨0x2000#16, 0xF000#16⟩, ⟨0x3000#16, 0xF000#16⟩, ⟨0x4000#16, 0xF000#16⟩] ++
  [⟨0x5000#16, 0xF00F#16⟩, ⟨0x6000#16, 0xF000#16⟩, ⟨0x7000#16, 0xF000#16⟩, ⟨0x8000#16, 0xF00F#16⟩, ⟨0x8001#16, 0xF00F#16⟩, ⟨0x8002#16, 0xF00F#16⟩] ++
  [⟨0x8003#16, 0xF00F#16⟩, ⟨0x8004#16, 0xF00F#16⟩, ⟨0x8005#16, 0xF00F#16⟩, ⟨0x8006#16, 0xF00F#16⟩, ⟨0x8007#16, 0xF00F#16⟩, ⟨0x800E#16, 0xF00F#16⟩] ++
  [⟨0x9000#16, 0xF00F#16⟩, ⟨0xA000#16, 0xF000#16⟩, ⟨0xB000#16, 0xF000#16⟩, ⟨0xC000#16, 0xF000#16⟩, ⟨0xD000#16, 0xF000#16⟩, ⟨0xE09E#16, 0xF0FF#16⟩] ++
  [⟨0xE0A1#16, 0xF0FF#16⟩, ⟨0xF007#16, 0xF0FF#16⟩, ⟨0xF00A#16, 0xF0FF#16⟩, ⟨0xF015#16, 0xF0FF#16⟩, ⟨0xF018#16, 0xF0FF#16⟩, ⟨0xF01E#16, 0xF0FF#16⟩] ++
  [⟨0xF029#16, 0xF0FF#16⟩, ⟨0xF033#16, 0xF0FF#16⟩, ⟨0xF055#16, 0xF0FF#16⟩, ⟨0xF065#16, 0xF0FF#16⟩]

/-! ### A row's word, numbered as spec/opcode_table.json numbers it -/

/-- The instruction word of `nbits` bits whose value is `w`, every bit above `nbits` zero. -/
def tableWord (nbits w : Nat) : Word := BitVec.ofNat 16 (w % 2 ^ nbits)

/-- The instruction this decoder reads from the word `w` of `nbits` bits, laid out in memory order (R76) and decoded. -/
def decodeTableWord (nbits w : Nat) : Option Instr :=
  match decode [(tableWord nbits w).extractLsb' 8 8, (tableWord nbits w).extractLsb' 0 8] with
  | .ok (i, _) => some i
  | .error _ => none

end Sys2Proof
end

