-- ==== Sys2Proof/Config.lean ====
section
/-! DEFINITION. The constants and parameters of the machine (spec 00_scope.md R8 to R18) and its one free value. -/

namespace Sys2Proof

/-- `MEM_SIZE`: the number of bytes of memory (R8). -/
abbrev Config.memSize : Nat := 4096

/-- `PROG_START`: where the ROM is placed and where the program counter starts (R13). -/
abbrev Config.progStart : Nat := 0x200

/-- `ROM_MAX`: the longest ROM that reset accepts, in bytes (R14). -/
abbrev Config.romMax : Nat := Config.memSize - Config.progStart

/-- `FB_W`: the columns of the framebuffer (R10). -/
abbrev Config.fbW : Nat := 64

/-- `FB_H`: the rows of the framebuffer (R10). -/
abbrev Config.fbH : Nat := 32

/-- The parameter `SHIFT_QUIRK`: which register 8XY6 and 8XYE shift (R15, R202). -/
inductive ShiftQuirk where
  /-- Vx is shifted in place and Vy is ignored, the behaviour the source specifies. -/
  | inPlace
  /-- Vy is shifted into Vx. -/
  | fromVy
  deriving DecidableEq, Repr

/-- The parameter `FONT`: 16 glyphs of 5 bytes, glyph d at addresses 5d to 5d + 4 (R12, R16, R90). -/
abbrev Font := Vector (Vector Byte 5) 16

/-- The random bytes that CXNN draws where the host has supplied none: free values, under no law (R18, R368).
The argument is the number of free draws taken before (log entry 4). -/
opaque Config.freeRandom : Nat → Byte

end Sys2Proof
end

