-- ==== Sys2Proof/Machine/Defaults.lean ====
section
/-! DEFINITION. The default values of the parameters SHIFT_QUIRK and FONT (spec 00_scope.md R15, R16). -/

namespace Sys2Proof.Machine

/-- The default of SHIFT_QUIRK is InPlace (R15, D12). -/
def defaultShiftQuirk : ShiftQuirk := .inPlace

/-- The five rows of a glyph, from the top (R90). -/
def glyph (r0 r1 r2 r3 r4 : Byte) : Vector Byte 5 := #v[r0, r1, r2, r3, r4]

/-- The default FONT of R91. Glyph 0 is the source's; glyphs 1 to F are PRESUMED, safe for claims that hold for every
FONT and unsafe for a claim that rests on their bytes: the spec itself marks them as general knowledge (log entry 2). -/
def defaultFont : Font :=
  #v[glyph 0xF0 0x90 0x90 0x90 0xF0, glyph 0x20 0x60 0x20 0x20 0x70,
     glyph 0xF0 0x10 0xF0 0x80 0xF0, glyph 0xF0 0x10 0xF0 0x10 0xF0,
     glyph 0x90 0x90 0xF0 0x10 0x10, glyph 0xF0 0x80 0xF0 0x10 0xF0,
     glyph 0xF0 0x80 0xF0 0x90 0xF0, glyph 0xF0 0x10 0x20 0x40 0x40,
     glyph 0xF0 0x90 0xF0 0x90 0xF0, glyph 0xF0 0x90 0xF0 0x10 0xF0,
     glyph 0xF0 0x90 0xF0 0x90 0x90, glyph 0xE0 0x90 0xE0 0x90 0xE0,
     glyph 0xF0 0x80 0x80 0x80 0xF0, glyph 0xE0 0x90 0x90 0x90 0xE0,
     glyph 0xF0 0x80 0xF0 0x80 0xF0, glyph 0xF0 0x80 0xF0 0x80 0x80]

end Sys2Proof.Machine
end

