-- ==== Sys2Proof/Machine/State.lean ====
section
/-! DEFINITION. The state of the machine as plain data (spec 10_state.md), the reasons a transaction can stop, and the
state after reset (70_reset_and_hazards.md R400 to R411). Field names are the spec's own. -/

namespace Sys2Proof.Machine

/-- The kinds of fault the core latches (R24, R350 to R353). -/
inductive FaultKind where
  /-- An instruction-computed address exceeds 0xFFF (R350). -/
  | addressOutOfRange
  /-- A call with 15 active calls (R351). -/
  | stackOverflow
  /-- A return with no active call (R352). -/
  | stackUnderflow
  /-- A key number above 0xF (R353). -/
  | keyIndexOutOfRange
  deriving DecidableEq, Repr

/-- What the fault latch records (R47). -/
structure FaultRecord where
  kind : FaultKind
  /-- The address of the faulting instruction. -/
  pc : Word
  /-- The fetched word, or 0 for a fetch fault. -/
  opcode : Word
  detail : Word
  deriving DecidableEq, Repr

/-- Memory: what it held when FONT had just been placed, and the bytes that differ from that now (R44, R401, R402).
The list is kept in one canonical form, `Memory.wf` of Ops.lean. -/
structure Memory where
  /-- The parameter FONT that reset placed at 0x000 to 0x04F. -/
  font : Font
  /-- (address, byte), addresses strictly rising, no byte equal to what an unlisted address reads as. -/
  cells : List Host.Cell
  deriving DecidableEq, Repr

/-- The framebuffer: 32 rows of 64 pixels, row 0 first and column 0 first in each, row-major (R10, R43). -/
abbrev Frame := Vector (Vector Bool Config.fbW) Config.fbH

/-- The state of the machine between two transactions (R30 to R47). -/
structure State where
  /-- The general registers V0 to VF (R30). -/
  V : Vector Byte 16
  /-- The index register (R36). -/
  I : Word
  /-- The program counter (R33). -/
  pc : Word
  /-- The stack pointer, the number of active calls (R37). -/
  sp : Fin 16
  /-- The call stack (R37). -/
  S : Vector Word 16
  /-- The delay timer (R39). -/
  DT : Byte
  /-- The sound timer (R40). -/
  ST : Byte
  /-- The keypad levels (R41). -/
  KEY : Vector Bool 16
  /-- The pending-key latch (R42). -/
  PENDING : Option Key
  /-- The framebuffer (R43). -/
  FB : Frame
  /-- Memory (R44). -/
  M : Memory
  /-- The first address not loaded, fixed when the ROM is placed (R46). -/
  ROM_END : Nat
  /-- The fault latch (R47). -/
  FAULT : Option FaultRecord
  /-- The parameter SHIFT_QUIRK (R15), carried here so that every claim covers both settings (log entry 1). -/
  SHIFT_QUIRK : ShiftQuirk
  /-- The model's own field: bytes the host has supplied for CXNN and none has consumed, oldest first (R368, log entry 4). -/
  rndSupply : List Byte
  /-- The model's own field: how many draws were free values (R18, log entry 4). -/
  rndCount : Nat
  deriving DecidableEq, Repr

/-- Why a transaction stops the machine. The core's own faults are not here: they are latched in `State.FAULT` and the
step that raises one answers a next state (R357). -/
inductive Fault where
  /-- Raised by the host's reset alone, never by a step: the ROM is empty, longer than ROM_MAX or cannot be read, and
  no core is started (R404, R373). Safe: the spec names this outcome. -/
  | loadError
  deriving DecidableEq, Repr

/-- Why an instruction is refused. -/
inductive Refusal where
  /-- Raised by `exec` for an instruction that has no meaning yet, by its mnemonic in spec/opcode_table.json. Safe.
  No instruction is left in this case. -/
  | notModelled (mnemonic : String)
  deriving DecidableEq, Repr

/-- The state after reset with the given parameters and no ROM placed yet (R401, R402, R405 to R411). ROM_END stands
where an empty ROM would end, so the core is Idle until a ROM is loaded. DESIGN CHOICE, safe: log entry 3. -/
def State.resetWith (quirk : ShiftQuirk) (font : Font) : State where
  V := Vector.replicate 16 0
  I := 0
  pc := 0x200
  sp := 0
  S := Vector.replicate 16 0
  DT := 0
  ST := 0
  KEY := Vector.replicate 16 false
  PENDING := none
  FB := Vector.replicate Config.fbH (Vector.replicate Config.fbW false)
  M := ⟨font, []⟩
  ROM_END := Config.progStart
  FAULT := none
  SHIFT_QUIRK := quirk
  rndSupply := []
  rndCount := 0

/-- The machine right after reset, with the default parameters (R15, R16, R400). -/
def State.reset : State := State.resetWith defaultShiftQuirk defaultFont

end Sys2Proof.Machine
end

