-- ==== Sys2Proof/Machine/Ops.lean ====
section
/-! DEFINITION. The named operations over memory, registers, stack, framebuffer and the fault latch. Every read and
write of the state by a meaning goes through these. -/

namespace Sys2Proof.Machine

/-- What a meaning answers. -/
abbrev Result := Host.Outcome State Fault Refusal

/-! ### Memory (spec 20_memory.md) -/

/-- What an address that no cell lists reads as: the reset contents, FONT at 0x000 to 0x04F and 0 elsewhere
(R401, R402, R90). -/
def Memory.unlisted (m : Memory) (a : Nat) : Byte :=
  if h : a < 80 then (m.font[a / 5]'(by omega))[a % 5]'(by omega) else 0

/-- The byte a cell list gives for an address, `d` where the list has none. -/
def cellsRead (d : Byte) (a : Nat) : List Host.Cell → Byte
  | [] => d
  | (k, b) :: rest => if k = a then b else cellsRead d a rest

/-- The cell list after storing `b` at `a`, where an unlisted `a` reads as `d`: sorted by address, and no cell kept
for a byte equal to `d`. -/
def cellsWrite (d : Byte) (a : Nat) (b : Byte) : List Host.Cell → List Host.Cell
  | [] => if b = d then [] else [(a, b)]
  | (k, c) :: rest =>
    if a < k then (if b = d then (k, c) :: rest else (a, b) :: (k, c) :: rest)
    else if a = k then (if b = d then rest else (a, b) :: rest)
    else (k, c) :: cellsWrite d a b rest

/-- `MemRead(a, 1)` (R72). Meanings check the range first (R23, R74). -/
def Memory.read (m : Memory) (a : Nat) : Byte := cellsRead (m.unlisted a) a m.cells

/-- `MemWrite(a, 1, b)` (R73). Meanings check the range first (R23, R74). -/
def Memory.write (m : Memory) (a : Nat) (b : Byte) : Memory :=
  { m with cells := cellsWrite (m.unlisted a) a b m.cells }

/-- The `n` bytes at `a`, `a + 1`, ..., in ascending order (R77). -/
def Memory.readBytes (m : Memory) (a : Nat) : Nat → List Byte
  | 0 => []
  | n + 1 => m.read a :: m.readBytes (a + 1) n

/-- Stores the bytes at `a`, `a + 1`, ..., in ascending order (R77). -/
def Memory.writeBytes (m : Memory) (a : Nat) : List Byte → Memory
  | [] => m
  | b :: rest => (m.write a b).writeBytes (a + 1) rest

/-- The canonical form of memory: addresses strictly rising and inside memory (R71), no cell equal to what its address
reads as when unlisted. -/
abbrev Memory.wf (m : Memory) : Prop :=
  m.cells.Pairwise (fun p q => p.1 < q.1) ∧ ∀ p ∈ m.cells, p.1 < Config.memSize ∧ p.2 ≠ m.unlisted p.1

/-- The big-endian word at `a` and `a + 1` (R76). -/
def Memory.readWord (m : Memory) (a : Nat) : Word := wordOfBytes (m.read a) (m.read (a + 1))

/-- Replaces memory. -/
def State.setM (s : State) (m : Memory) : State := { s with M := m }

/-- The byte memory holds at `a`. -/
def State.readByte (s : State) (a : Nat) : Byte := s.M.read a

/-- Stores bytes at `a`, `a + 1`, ... . -/
def State.storeBytes (s : State) (a : Nat) (bytes : List Byte) : State := s.setM (s.M.writeBytes a bytes)

/-! ### Registers (spec 10_state.md) -/

/-- VF, the register that is also the flag (R31). -/
abbrev vF : Reg := 15

/-- `V[x]` (R21, R30). -/
def State.getV (s : State) (x : Reg) : Byte := s.V[x]

/-- `V[x] <- b` (R21, R30). -/
def State.setV (s : State) (x : Reg) (b : Byte) : State := { s with V := s.V.set x b }

/-- `VF <- flag; V[x] <- b`, in this order, so that with x = F the result stays (R32, R138, D9). -/
def State.setFlagThenV (s : State) (x : Reg) (flag b : Byte) : State := (s.setV vF flag).setV x b

/-- The register file with `V[k] <- f k` for every k from 0 to `x` (R255). -/
def State.loadV (s : State) (x : Reg) (f : Nat → Byte) : State :=
  { s with V := Vector.ofFn fun k => if k ≤ x then f k else s.V[k] }

/-- V0 to Vx in ascending order (R254). -/
def State.dumpV (s : State) (x : Reg) : List Byte := s.V.toList.take (x.val + 1)

/-- `I <- v` (R36). -/
def State.setI (s : State) (v : Word) : State := { s with I := v }

/-- `pc <- v` (R25, R33). -/
def State.setPc (s : State) (v : Word) : State := { s with pc := v }

/-- The fetch advance `pc <- pc + 2` (R134). -/
def State.advance (s : State) : State := s.setPc (s.pc + 2)

/-- A skip: `pc <- pc + 2` once more when the condition holds (R25). -/
def State.skipIf (s : State) (c : Bool) : State := if c then s.setPc (s.pc + 2) else s

/-- `DT <- b` (R39). -/
def State.setDT (s : State) (b : Byte) : State := { s with DT := b }

/-- `ST <- b` (R40). -/
def State.setST (s : State) (b : Byte) : State := { s with ST := b }

/-- `PENDING <- p` (R42). -/
def State.setPENDING (s : State) (p : Option Key) : State := { s with PENDING := p }

/-- `KEY[k] <- b` (R41). -/
def State.setKEY (s : State) (k : Key) (b : Bool) : State := { s with KEY := s.KEY.set k b }

/-! ### The call stack (R37) -/

/-- `sp <- sp + 1; S[sp] <- v`, for sp below 15 (R162). -/
def State.push (s : State) (v : Word) : State := { s with sp := s.sp + 1, S := s.S.set (s.sp + 1 : Fin 16) v }

/-- `sp <- sp - 1`, for sp above 0; the popped slot keeps its value (R160). -/
def State.pop (s : State) : State := { s with sp := s.sp - 1 }

/-- `S[sp]`, the most recent return address (R37). -/
def State.stackTop (s : State) : Word := s.S[s.sp]

/-! ### The framebuffer (R43) -/

/-- `FB[x][y]`: the pixel at column x and row y. -/
def Frame.pixel (f : Frame) (x : Fin 64) (y : Fin 32) : Bool := f[y][x]

/-- `FB[x][y] <- b`. -/
def Frame.setPixel (f : Frame) (x : Fin 64) (y : Fin 32) (b : Bool) : Frame := f.set y (f[y].set x b)

/-- Every pixel 0. -/
def Frame.blank : Frame := Vector.replicate 32 (Vector.replicate 64 false)

/-- Replaces the framebuffer. -/
def State.setFB (s : State) (f : Frame) : State := { s with FB := f }

/-! ### The random draw (R18, R368, log entry 4) -/

/-- The byte the next draw gives: the oldest supplied byte, a free value where the host has supplied none. -/
def State.drawnByte (s : State) : Byte :=
  match s.rndSupply with
  | b :: _ => b
  | [] => Config.freeRandom s.rndCount

/-- The state after the draw is consumed: every draw is used once (R216: a fresh draw per execution). -/
def State.consumeDraw (s : State) : State :=
  match s.rndSupply with
  | _ :: rest => { s with rndSupply := rest }
  | [] => { s with rndCount := s.rndCount + 1 }

/-! ### Taking a fault (R139, R357) -/

/-- `raise kind(detail)` at the instruction at `A` whose word is `w`: `pc <- A; FAULT <- (kind, A, w, detail)` and
nothing else. There is no handler and no return: the core is halted until reset (R130, R358). -/
def State.raise (s : State) (A w : Word) (kind : FaultKind) (detail : Word) : State :=
  { s with pc := A, FAULT := some ⟨kind, A, w, detail⟩ }

/-- The fault of the executing instruction `i`: the program counter has been advanced past it, so it stands at pc - 2
(R134, R139), and its word is its encoding, which has no bit that is not decoded (R103, log entry 5). -/
def State.raiseIn (s : State) (i : Instr) (kind : FaultKind) (detail : Word) : State :=
  s.raise (s.pc - 2) (encode i) kind detail

/-- The code of a fault kind in the FAULT record's `kind` field (R355). -/
def FaultKind.code : FaultKind → Nat
  | .addressOutOfRange => 1
  | .stackOverflow => 2
  | .stackUnderflow => 3
  | .keyIndexOutOfRange => 4

/-- The latch's kind as a number, 0 for none (R355). -/
def State.faultCode (s : State) : Nat :=
  match s.FAULT with
  | none => 0
  | some r => r.kind.code

end Sys2Proof.Machine
end

