-- ==== Sys2Proof/Machine/Operands.lean ====
section
/-! DEFINITION. The operand forms: field assembly, effective addresses and their range check, the shift source, the key
number (spec 30_encoding.md R102, 20_memory.md R74 and R83, 42_alu_shift.md R202). -/

namespace Sys2Proof.Machine

/-- `zext_16(NNN)` (R102). -/
def zext16 (nnn : Addr12) : Word := nnn.setWidth 16

/-- A byte widened to 16 bits with zero bits (R22). -/
def zext16Byte (b : Byte) : Word := b.setWidth 16

/-- The low eight bits of an exact number (R200). -/
def narrow8 (n : Nat) : Byte := BitVec.ofNat 8 n

/-- The range check on the `n` bytes at `a`: `n >= 1` and `a + n - 1 > 0xFFF`, as exact numbers (R74, R83). -/
def outOfRange (a n : Nat) : Bool := decide (1 ≤ n ∧ a + n - 1 > 0xFFF)

/-- The first address past memory, the detail of a failed range check (R74). -/
def pastMemory : Word := 0x1000

/-- The base address of every data access: I (R83). -/
def State.dataBase (s : State) : Nat := s.I.toNat

/-- The shift source: Vx under InPlace, Vy under FromVy (R202). -/
def State.shiftSource (s : State) (x y : Reg) : Byte :=
  match s.SHIFT_QUIRK with
  | .inPlace => s.getV x
  | .fromVy => s.getV y

/-- The key a register value names, none above 0xF (R320, R321). -/
def keyOf (a : Byte) : Option Key := if h : a.toNat < 16 then some ⟨a.toNat, h⟩ else none

/-- `zext_16(NNN) + V0`, the exact sum (R167). -/
def offsetTarget (nnn : Addr12) (v0 : Byte) : Word := BitVec.ofNat 16 (nnn.toNat + v0.toNat)

/-- `I + Vx`, the exact sum (R251). -/
def State.indexSum (s : State) (x : Reg) : Nat := s.I.toNat + (s.getV x).toNat

/-- The address of the glyph for the low nibble of a byte: `(a & 0xF) * 5` (R90, R252). -/
def glyphAddr (a : Byte) : Word := BitVec.ofNat 16 ((a.toNat % 16) * 5)

/-- The hundreds, tens and ones digits of a byte (R253). -/
def bcdDigits (a : Byte) : List Byte :=
  [narrow8 (a.toNat / 100), narrow8 ((a.toNat / 10) % 10), narrow8 (a.toNat % 10)]

end Sys2Proof.Machine
end

