-- ==== Sys2Proof/Machine/Flags.lean ====
section
/-! DEFINITION. The results and the flag of the ALU and the shift unit (spec 42_alu_shift.md R200 to R202): exact
numbers, narrowed at the end. The only flag is VF, and it is written with 0 or 1 (R35, R201). -/

namespace Sys2Proof.Machine

/-- A condition as the flag value 0 or 1 (R201). -/
def flagByte (c : Bool) : Byte := if c then 1 else 0

/-- `(a + b) mod 256` (R200, R206, R211). -/
def addResult (a b : Byte) : Byte := narrow8 (a.toNat + b.toNat)

/-- The carry: 1 exactly when the exact sum exceeds 255 (R201, R211). -/
def carryFlag (a b : Byte) : Byte := flagByte (decide (a.toNat + b.toNat > 255))

/-- `(a - b) mod 256` (R22, R200, R212). -/
def subResult (a b : Byte) : Byte := BitVec.ofInt 8 ((a.toNat : Int) - (b.toNat : Int))

/-- The no-borrow flag of `a - b`: 1 exactly when `a >= b` (R201, R212). -/
def noBorrowFlag (a b : Byte) : Byte := flagByte (decide (a.toNat ≥ b.toNat))

/-- `s >> 1` (R202). -/
def shrResult (s : Byte) : Byte := narrow8 (s.toNat / 2)

/-- `s & 1`, the bit a right shift moves out (R202). -/
def shrFlag (s : Byte) : Byte := flagByte (s.getLsbD 0)

/-- `(s << 1) mod 256` (R202). -/
def shlResult (s : Byte) : Byte := narrow8 (s.toNat * 2)

/-- `(s >> 7) & 1`, the bit a left shift moves out (R202). -/
def shlFlag (s : Byte) : Byte := flagByte (s.getLsbD 7)

end Sys2Proof.Machine
end

