-- ==== Sys2Proof/Machine/Alu.lean ====
section
/-! DEFINITION. The register, arithmetic, logic, shift and random instructions (spec 42_alu_shift.md). None of them
changes pc beyond the fetch advance, accesses memory or raises a fault. -/

namespace Sys2Proof.Machine

/-- `V[X] <- NN` (R205). -/
def exec6XNN (x : Reg) (nn : Byte) (s : State) : Result := .next (s.setV x nn)

/-- `V[X] <- (a + NN) mod 256`, no flag (R206). -/
def exec7XNN (x : Reg) (nn : Byte) (s : State) : Result := .next (s.setV x (addResult (s.getV x) nn))

/-- `V[X] <- b` (R207). -/
def exec8XY0 (x y : Reg) (s : State) : Result := .next (s.setV x (s.getV y))

/-- `V[X] <- a | b`, no flag (R208). -/
def exec8XY1 (x y : Reg) (s : State) : Result := .next (s.setV x (s.getV x ||| s.getV y))

/-- `V[X] <- a & b`, no flag (R209). -/
def exec8XY2 (x y : Reg) (s : State) : Result := .next (s.setV x (s.getV x &&& s.getV y))

/-- `V[X] <- a ^ b`, no flag (R210). -/
def exec8XY3 (x y : Reg) (s : State) : Result := .next (s.setV x (s.getV x ^^^ s.getV y))

/-- `VF <- carry; V[X] <- (a + b) mod 256` (R211). -/
def exec8XY4 (x y : Reg) (s : State) : Result :=
  .next (s.setFlagThenV x (carryFlag (s.getV x) (s.getV y)) (addResult (s.getV x) (s.getV y)))

/-- `VF <- (a >= b); V[X] <- (a - b) mod 256` (R212). -/
def exec8XY5 (x y : Reg) (s : State) : Result :=
  .next (s.setFlagThenV x (noBorrowFlag (s.getV x) (s.getV y)) (subResult (s.getV x) (s.getV y)))

/-- `VF <- s & 1; V[X] <- s >> 1` for the shift source s (R213). -/
def exec8XY6 (x y : Reg) (s : State) : Result :=
  .next (s.setFlagThenV x (shrFlag (s.shiftSource x y)) (shrResult (s.shiftSource x y)))

/-- `VF <- (b >= a); V[X] <- (b - a) mod 256` (R214). -/
def exec8XY7 (x y : Reg) (s : State) : Result :=
  .next (s.setFlagThenV x (noBorrowFlag (s.getV y) (s.getV x)) (subResult (s.getV y) (s.getV x)))

/-- `VF <- (s >> 7) & 1; V[X] <- (s << 1) mod 256` for the shift source s (R215). -/
def exec8XYE (x y : Reg) (s : State) : Result :=
  .next (s.setFlagThenV x (shlFlag (s.shiftSource x y)) (shlResult (s.shiftSource x y)))

/-- `rnd <- draw(); V[X] <- rnd & NN` (R216). -/
def execCXNN (x : Reg) (nn : Byte) (s : State) : Result := .next (s.consumeDraw.setV x (s.drawnByte &&& nn))

end Sys2Proof.Machine
end

