-- ==== Sys2Proof/Machine/ControlFlow.lean ====
section
/-! DEFINITION. The return, the jumps, the call and the register and immediate skips (spec 41_control_flow.md). On
entry pc is A + 2, where A is the instruction's own address (R134). -/

namespace Sys2Proof.Machine

/-- `pc <- S[sp]; sp <- sp - 1`; StackUnderflow when sp = 0 (R160, R352). -/
def exec00EE (s : State) : Result :=
  if s.sp = 0 then .next (s.raiseIn .op00EE .stackUnderflow 0) else .next (s.pop.setPc s.stackTop)

/-- `pc <- zext_16(NNN)` (R161). -/
def exec1NNN (nnn : Addr12) (s : State) : Result := .next (s.setPc (zext16 nnn))

/-- `sp <- sp + 1; S[sp] <- pc; pc <- zext_16(NNN)`; StackOverflow when sp = 15 (R162, R351). -/
def exec2NNN (nnn : Addr12) (s : State) : Result :=
  if s.sp = 15 then .next (s.raiseIn (.op2NNN nnn) .stackOverflow 15)
  else .next ((s.push s.pc).setPc (zext16 nnn))

/-- Skips when `V[X] = NN` (R163). -/
def exec3XNN (x : Reg) (nn : Byte) (s : State) : Result := .next (s.skipIf (s.getV x == nn))

/-- Skips when `V[X] != NN` (R164). -/
def exec4XNN (x : Reg) (nn : Byte) (s : State) : Result := .next (s.skipIf (s.getV x != nn))

/-- Skips when `V[X] = V[Y]` (R165). -/
def exec5XY0 (x y : Reg) (s : State) : Result := .next (s.skipIf (s.getV x == s.getV y))

/-- Skips when `V[X] != V[Y]` (R166). -/
def exec9XY0 (x y : Reg) (s : State) : Result := .next (s.skipIf (s.getV x != s.getV y))

/-- `pc <- zext_16(NNN) + V[0]` (R167). -/
def execBNNN (nnn : Addr12) (s : State) : Result := .next (s.setPc (offsetTarget nnn (s.getV 0)))

end Sys2Proof.Machine
end

