-- ==== Sys2Proof/Machine/Display.lean ====
section
/-! DEFINITION. The two instructions that write the framebuffer (spec 44_display.md). -/

namespace Sys2Proof.Machine

/-- A framebuffer being drawn on and whether some set pixel has become unset so far (R291). -/
abbrev Drawing := Frame × Bool

/-- One sprite bit that is 1, on the pixel at column x and row y: a collision if the pixel is set, then XOR (R291). -/
def drawPixel (x : Fin 64) (y : Fin 32) (d : Drawing) : Drawing :=
  (d.1.setPixel x y (!d.1.pixel x y), d.2 || d.1.pixel x y)

/-- Column c of a sprite row: bit 7 - c of the byte, on the pixel ((x0 + c) mod 64, y mod 32) (R291). -/
def drawColumn (x0 y : Nat) (row : Byte) (d : Drawing) (c : Nat) : Drawing :=
  if row.getLsbD (7 - c) then drawPixel (Fin.ofNat 64 (x0 + c)) (Fin.ofNat 32 y) d else d

/-- The eight columns of a sprite row, leftmost first (R291). -/
def drawRow (x0 y : Nat) (row : Byte) (d : Drawing) : Drawing :=
  (List.range 8).foldl (drawColumn x0 y row) d

/-- The rows of a sprite, from the top (R291). -/
def drawSprite (x0 y0 : Nat) (rows : List Byte) (d : Drawing) : Drawing :=
  match rows with
  | [] => d
  | row :: rest => drawSprite x0 (y0 + 1) rest (drawRow x0 y0 row d)

/-- The sprite of `n` rows at I, drawn at (Vx, Vy); the operands are read before any write (R136, R291). -/
def State.drawing (s : State) (x y : Reg) (n : Nat) : Drawing :=
  drawSprite (s.getV x).toNat (s.getV y).toNat (s.M.readBytes s.dataBase n) (s.FB, false)

/-- Every pixel 0 (R290). -/
def exec00E0 (s : State) : Result := .next (s.setFB Frame.blank)

/-- Draws by XOR with wraparound; VF is the collision flag (R291). -/
def execDXYN (x y : Reg) (n : Nat) (s : State) : Result :=
  if outOfRange s.dataBase n then .next (s.raiseIn (.opDXYN x y n) .addressOutOfRange pastMemory)
  else .next ((s.setFB (s.drawing x y n).1).setV vF (flagByte (s.drawing x y n).2))

end Sys2Proof.Machine
end

