-- ==== Sys2Proof/Machine/IndexLoadStore.lean ====
section
/-! DEFINITION. The instructions that set the index register and those that move data between the registers and memory
through it (spec 43_index_loadstore.md). A failed range check comes before the first access (R74, R75). -/

namespace Sys2Proof.Machine

/-- `I <- zext_16(NNN)` (R250). -/
def execANNN (nnn : Addr12) (s : State) : Result := .next (s.setI (zext16 nnn))

/-- `I <- I + a`; AddressOutOfRange with the sum as detail when it exceeds 0xFFF (R251). -/
def execFX1E (x : Reg) (s : State) : Result :=
  if s.indexSum x > 0xFFF then
    .next (s.raiseIn (.opFX1E x) .addressOutOfRange (BitVec.ofNat 16 (s.indexSum x)))
  else .next (s.setI (BitVec.ofNat 16 (s.indexSum x)))

/-- `I <- (a & 0xF) * 5` (R252). -/
def execFX29 (x : Reg) (s : State) : Result := .next (s.setI (glyphAddr (s.getV x)))

/-- Stores the hundreds, tens and ones digits of Vx at I, I + 1, I + 2 (R253). -/
def execFX33 (x : Reg) (s : State) : Result :=
  if outOfRange s.dataBase 3 then .next (s.raiseIn (.opFX33 x) .addressOutOfRange pastMemory)
  else .next (s.storeBytes s.dataBase (bcdDigits (s.getV x)))

/-- Stores V0 to Vx at I to I + X; I is not changed (R254). -/
def execFX55 (x : Reg) (s : State) : Result :=
  if outOfRange s.dataBase (x.val + 1) then .next (s.raiseIn (.opFX55 x) .addressOutOfRange pastMemory)
  else .next (s.storeBytes s.dataBase (s.dumpV x))

/-- Loads V0 to Vx from I to I + X; I is not changed (R255). -/
def execFX65 (x : Reg) (s : State) : Result :=
  if outOfRange s.dataBase (x.val + 1) then .next (s.raiseIn (.opFX65 x) .addressOutOfRange pastMemory)
  else .next (s.loadV x fun k => s.readByte (s.dataBase + k))

end Sys2Proof.Machine
end

