-- ==== Sys2Proof/Machine/TimersKeypad.lean ====
section
/-! DEFINITION. The key skips, the key wait and the timer accesses (spec 45_timers_keypad.md). -/

namespace Sys2Proof.Machine

/-- The common part of the key skips: KeyIndexOutOfRange when Vx names no key, otherwise a skip when the key's level is
`level` (R320, R321, R353). -/
def State.skipIfKey (s : State) (i : Instr) (x : Reg) (level : Bool) : State :=
  match keyOf (s.getV x) with
  | none => s.raiseIn i .keyIndexOutOfRange (zext16Byte (s.getV x))
  | some k => s.skipIf (s.KEY[k] == level)

/-- Skips when the key Vx is pressed (R320). -/
def execEX9E (x : Reg) (s : State) : Result := .next (s.skipIfKey (.opEX9E x) x true)

/-- Skips when the key Vx is not pressed (R321). -/
def execEXA1 (x : Reg) (s : State) : Result := .next (s.skipIfKey (.opEXA1 x) x false)

/-- `V[X] <- DT` (R322). -/
def execFX07 (x : Reg) (s : State) : Result := .next (s.setV x s.DT)

/-- `V[X] <- PENDING; PENDING <- none`; with no pending key the program counter is rewound by 2, so that the
instruction executes again at the next step (R323). -/
def execFX0A (x : Reg) (s : State) : Result :=
  match s.PENDING with
  | none => .next (s.setPc (s.pc - 2))
  | some k => .next ((s.setV x (narrow8 k.val)).setPENDING none)

/-- `DT <- a` (R324). -/
def execFX15 (x : Reg) (s : State) : Result := .next (s.setDT (s.getV x))

/-- `ST <- a` (R325). -/
def execFX18 (x : Reg) (s : State) : Result := .next (s.setST (s.getV x))

end Sys2Proof.Machine
end

