-- ==== Sys2Proof/Machine/Pipeline.lean ====
section
/-! DEFINITION. The step of the core in its phases (spec 40_pipeline.md R130 to R142) and what each step reports to the
host (R141). -/

namespace Sys2Proof.Machine

/-- The core is halted: a fault is latched (R130). -/
def State.halted (s : State) : Bool := s.FAULT.isSome

/-- The core is idle: pc is at or beyond the end of the loaded program (R131). -/
def State.idle (s : State) : Bool := decide (s.pc.toNat ≥ s.ROM_END)

/-- The fetch would read outside memory: pc + 1 exceeds 0xFFF (R132). -/
def State.fetchOutOfRange (s : State) : Bool := decide (s.pc.toNat + 1 > 0xFFF)

/-- The word the fetch reads: current memory, big-endian (R76, R133). -/
def State.fetchWord (s : State) : Word := s.M.readWord s.pc.toNat

/-- The fetch fault: AddressOutOfRange with opcode 0 (R132, R139). -/
def State.raiseFetch (s : State) : State := s.raise s.pc 0 .addressOutOfRange 0x1000

/-- One step, its checks in the order of R356: halted, idle, fetch range, then the instruction. -/
def pipeline (s : State) : Result :=
  if s.halted then .next s
  else if s.idle then .next s
  else if s.fetchOutOfRange then .next s.raiseFetch
  else
    match decodeWord s.fetchWord with
    | none => .next s.advance
    | some i => exec i s.advance

/-- What a step reports to the host (R141). -/
inductive StepReport where
  | executed (A w : Word)
  | unknown (A w : Word)
  | waiting (A : Word)
  | idle
  | faulted (r : FaultRecord)
  | halted
  deriving DecidableEq, Repr

/-- The instruction is FX0A and finds no pending key (R323). -/
def waitsForKey (i : Instr) (s : State) : Bool :=
  match i with
  | .opFX0A _ => s.PENDING.isNone
  | _ => false

/-- What the decoded instruction `i` at `A`, of word `w`, reports from the advanced state `s`: the fault it latches, the
wait of FX0A, or its execution (R141). No meaning answers a fault or a refusal, so the last two lines are not reached. -/
def reportOf (i : Instr) (A w : Word) (s : State) : StepReport :=
  match exec i s with
  | .next t =>
    match t.FAULT with
    | some r => .faulted r
    | none => if waitsForKey i s then .waiting A else .executed A w
  | .fault _ => .halted
  | .refused _ => .halted

/-- What the next step reports, beside the state it leaves (R141). It is an output and changes no state. -/
def stepReport (s : State) : StepReport :=
  if s.halted then .halted
  else if s.idle then .idle
  else if s.fetchOutOfRange then .faulted ⟨.addressOutOfRange, s.pc, 0, 0x1000⟩
  else
    match decodeWord s.fetchWord with
    | none => .unknown s.pc s.fetchWord
    | some i => reportOf i s.pc s.fetchWord s.advance

/-- The program counter at which a word can be placed for the next fetch: where it stands, and the reset entry point
0x200 where no word can be fetched there (R132, log entry 10). -/
def State.fetchPlace (s : State) : Word := if s.fetchOutOfRange then 0x200 else s.pc

/-- The state with the word `w` stored where the next step fetches (R76), not halted (R130) and not idle (R131), so that
the next step fetches and decodes exactly `w` (log entry 10). Nothing else changes. -/
def State.placeFetchWord (s : State) (w : Word) : State :=
  { s with
    pc := s.fetchPlace
    M := s.M.writeBytes s.fetchPlace.toNat [w.extractLsb' 8 8, w.extractLsb' 0 8]
    ROM_END := max s.ROM_END (s.fetchPlace.toNat + 2)
    FAULT := none }

end Sys2Proof.Machine
end

