-- ==== Sys2Proof/Machine/Step.lean ====
section
/-! DEFINITION. The step of the core (spec 40_pipeline.md): its phases are in Pipeline.lean. -/

namespace Sys2Proof.Machine

/-- `step()`: at most one instruction, from one state between transactions to the next (R5, R130 to R142). -/
def step (s : State) : Host.Outcome State Fault Refusal := pipeline s

/-- `s` with the word `w` of `nbits` bits stored where `step` fetches its next instruction, and whatever else the fetch
needs (log entry 10). -/
def State.withFetchWord (s : State) (nbits w : Nat) : State := s.placeFetchWord (tableWord nbits w)

end Sys2Proof.Machine
end

