-- ==== Sys2Proof/Machine/HostOps.lean ====
section
/-! DEFINITION. The operations of the host (spec 60_exceptions.md R361 to R369, 70_reset_and_hazards.md R400 to R412).
Each is one indivisible transaction between two steps (R6). -/

namespace Sys2Proof.Machine

/-! ### Timers, keypad, random supply -/

/-- Delay tick: `if DT > 0: DT <- DT - 1` (R361). A halted core can still be ticked. -/
def State.delayTick (s : State) : State := if s.DT.toNat > 0 then s.setDT (s.DT - 1) else s

/-- Sound tick: `if ST > 0: ST <- ST - 1` (R362). -/
def State.soundTick (s : State) : State := if s.ST.toNat > 0 then s.setST (s.ST - 1) else s

/-- Key-down: `KEY[k] <- true; PENDING <- k` (R363). -/
def State.keyDown (s : State) (k : Key) : State := (s.setKEY k true).setPENDING (some k)

/-- Key-up: `KEY[k] <- false`, PENDING is not changed (R364). -/
def State.keyUp (s : State) (k : Key) : State := s.setKEY k false

/-- Random supply: one more byte for CXNN to draw, under no law (R368). -/
def State.supplyRandom (s : State) (b : Byte) : State := { s with rndSupply := s.rndSupply ++ [b] }

/-! ### Reads -/

/-- Framebuffer read (R365). -/
def State.framebuffer (s : State) : Frame := s.FB

/-- Sound signal (R366): a tone sounds while it is not 0. -/
def State.soundSignal (s : State) : Byte := s.ST

/-- What the status read returns (R367). -/
inductive Status where
  | halted (r : FaultRecord)
  | idle
  | running
  deriving DecidableEq, Repr

/-- Status read: halted with the record when a fault is latched, else idle when pc is at or beyond ROM_END, else
running (R367). -/
def State.status (s : State) : Status :=
  match s.FAULT with
  | some r => .halted r
  | none => if s.idle then .idle else .running

/-! ### Reset -/

/-- The state after reset with an accepted ROM: R401, R402 and R405 to R411, with the image at 0x200 and ROM_END at its
end (R403). -/
def State.load (quirk : ShiftQuirk) (font : Font) (rom : List Byte) : State :=
  let s := State.resetWith quirk font
  { s with M := s.M.writeBytes Config.progStart rom, ROM_END := Config.progStart + rom.length }

/-- Reset with ROM and FONT (R400): LoadError where the image cannot be read (none), is empty or is longer than ROM_MAX
(R404), and then no core is started; otherwise the core is ready for its first step. -/
def hostReset (quirk : ShiftQuirk) (font : Font) (rom : Option (List Byte)) : Result :=
  match rom with
  | none => .fault .loadError
  | some image =>
    if image.length = 0 ∨ image.length > Config.romMax then .fault .loadError else .next (State.load quirk font image)

/-! ### Transactions (R6, R369) -/

/-- The host operations that can change state between steps. -/
inductive HostOp where
  | delayTick
  | soundTick
  | keyDown (k : Key)
  | keyUp (k : Key)
  | supplyRandom (b : Byte)
  deriving DecidableEq, Repr

/-- The effect of a host operation. -/
def applyHostOp (op : HostOp) (s : State) : State :=
  match op with
  | .delayTick => s.delayTick
  | .soundTick => s.soundTick
  | .keyDown k => s.keyDown k
  | .keyUp k => s.keyUp k
  | .supplyRandom b => s.supplyRandom b

/-- One indivisible transaction: a step of the core or an operation of the host. -/
inductive Transaction where
  | step
  | host (op : HostOp)
  deriving DecidableEq, Repr

/-- The effect of a transaction. -/
def applyTransaction (e : Transaction) (s : State) : Result :=
  match e with
  | .step => step s
  | .host op => .next (applyHostOp op s)

/-- A run: one total order of transactions, in any interleaving the host chooses. -/
def runTransactions (es : List Transaction) (s : State) : Result :=
  match es with
  | [] => .next s
  | e :: rest =>
    match applyTransaction e s with
    | .next t => runTransactions rest t
    | .fault r => .fault r
    | .refused r => .refused r

end Sys2Proof.Machine
end

