-- ==== Sys2Proof/Safety.lean ====
section
/-! DEFINITION. What holds of every state a run reaches, when a run has ended, and which states are reachable (spec
10_state.md R34 to R47, 40_pipeline.md R143). -/

namespace Sys2Proof.Machine

/-- The record's detail is one that its kind can have, with the stack pointer that raised it (R47, R350 to R353). -/
def FaultRecord.consistent (r : FaultRecord) (s : State) : Prop :=
  match r.kind with
  | .addressOutOfRange => 0x1000 ≤ r.detail.toNat ∧ r.detail.toNat ≤ 0x10FE
  | .stackOverflow => r.detail = 15 ∧ s.sp = 15
  | .stackUnderflow => r.detail = 0 ∧ s.sp = 0
  | .keyIndexOutOfRange => 0x10 ≤ r.detail.toNat ∧ r.detail.toNat ≤ 0xFF

/-- The invariant of the machine. -/
structure State.Inv (s : State) : Prop where
  /-- Memory is in its canonical form, inside the address space (R70, R71). -/
  memory : s.M.wf
  /-- Bits 15 to 12 of I are always 0 (R36). -/
  index : s.I.toNat ≤ 0xFFF
  /-- pc never wraps (R34). -/
  counter : s.pc.toNat ≤ 0x10FE
  /-- ROM_END = 0x200 + ROM_LEN with ROM_LEN at most ROM_MAX (R17, R46). -/
  rom : Config.progStart ≤ s.ROM_END ∧ s.ROM_END ≤ Config.memSize
  /-- S[0] is never written (R37). -/
  slotZero : s.S[(0 : Fin 16)] = 0
  /-- Every slot holds 0 or the address after a call (R34, R162). -/
  slots : ∀ k : Fin 16, s.S[k].toNat ≤ 0x1000
  /-- A latched fault stands at the instruction that raised it and its detail fits its kind (R47, R139). -/
  fault : ∀ r, s.FAULT = some r → r.pc = s.pc ∧ r.consistent s

/-- The run has ended: the core is idle or halted (R143). -/
def State.ended (s : State) : Bool := s.halted || s.idle

/-- The states a run reaches: from a reset that accepts its ROM, by any transactions (R369, R400). -/
inductive Reachable : State → Prop where
  | reset (quirk : ShiftQuirk) (font : Font) (rom : Option (List Byte)) (s : State)
      (h : hostReset quirk font rom = .next s) : Reachable s
  | transaction (e : Transaction) (s t : State) (hs : Reachable s) (h : applyTransaction e s = .next t) : Reachable t

end Sys2Proof.Machine
end

