-- ==== Sys2Proof/Certificates/Slice0/Obligations.lean ====
section
/-! DEFINITION. What the model claims about the machine of spec/: one `def Obligations.<Name> : Prop` for each claim.
`exec i` runs at a state whose pc has been advanced past the instruction, so the instruction stands at pc - 2 (R134). -/

namespace Sys2Proof.Claims

open Sys2Proof.Machine

/-! ### The words of the claims -/

/-- Every byte of memory reads as before. -/
def SameBytes (s t : State) : Prop := ∀ a, t.readByte a = s.readByte a

/-- Every byte of memory outside the `n` bytes at `a` reads as before. -/
def SameBytesOutside (a n : Nat) (s t : State) : Prop := ∀ k, k < a ∨ a + n ≤ k → t.readByte k = s.readByte k

/-- Nothing but general registers has changed. -/
def ChangesOnlyV (s t : State) : Prop := t = { s with V := t.V } ∧ SameBytes s t

/-- Nothing but the program counter has changed. -/
def ChangesOnlyPc (s t : State) : Prop := t = { s with pc := t.pc } ∧ SameBytes s t

/-- Nothing but the index register has changed. -/
def ChangesOnlyI (s t : State) : Prop := t = { s with I := t.I } ∧ SameBytes s t

/-- Only register `x` has changed, and it holds `b`. -/
def WritesOnly (x : Reg) (b : Byte) (s t : State) : Prop :=
  (∀ k, t.getV k = if k = x then b else s.getV k) ∧ ChangesOnlyV s t

/-- The state of `s` with the fault of the instruction `i`, which stands at pc - 2: pc back at it, the record latched, and
nothing else changed (R139, R357). -/
def faulted (s : State) (i : Instr) (kind : FaultKind) (detail : Word) : State :=
  { s with pc := s.pc - 2, FAULT := some ⟨kind, s.pc - 2, encode i, detail⟩ }

/-- The big-endian word at the program counter (R76, R133). -/
def wordAtPc (s : State) : Word := wordOfBytes (s.readByte s.pc.toNat) (s.readByte (s.pc.toNat + 1))

/-- The core is not halted, not idle, its fetch stays inside memory, and the word it fetches is `w` (R130 to R133). -/
def FetchesWord (s : State) (w : Word) : Prop :=
  s.FAULT = none ∧ s.pc.toNat < s.ROM_END ∧ s.pc.toNat + 1 ≤ 0xFFF ∧ wordAtPc s = w

/-- The word of the instruction is the number `w`: its match value with its fields added (R103, R104). -/
def EncodesAs (i : Instr) (w : Nat) : Prop := (encode i).toNat = w

/-- The shift source of R202. -/
def shiftSourceOf (s : State) (x y : Reg) : Byte := if s.SHIFT_QUIRK = .inPlace then s.getV x else s.getV y

/-- The table of which instruction raises which fault, and with which detail (R350 to R353). -/
def faultCondition (i : Instr) (s : State) : Option (FaultKind × Word) :=
  match i with
  | .op00E0 => none
  | .op00EE => if s.sp = 0 then some (.stackUnderflow, 0) else none
  | .op1NNN _ => none
  | .op2NNN _ => if s.sp = 15 then some (.stackOverflow, 15) else none
  | .op3XNN _ _ => none
  | .op4XNN _ _ => none
  | .op5XY0 _ _ => none
  | .op6XNN _ _ => none
  | .op7XNN _ _ => none
  | .op8XY0 _ _ => none
  | .op8XY1 _ _ => none
  | .op8XY2 _ _ => none
  | .op8XY3 _ _ => none
  | .op8XY4 _ _ => none
  | .op8XY5 _ _ => none
  | .op8XY6 _ _ => none
  | .op8XY7 _ _ => none
  | .op8XYE _ _ => none
  | .op9XY0 _ _ => none
  | .opANNN _ => none
  | .opBNNN _ => none
  | .opCXNN _ _ => none
  | .opDXYN _ _ n => if 1 ≤ n ∧ 0xFFF < s.I.toNat + n - 1 then some (.addressOutOfRange, 0x1000) else none
  | .opEX9E x => if 0xF < (s.getV x).toNat then some (.keyIndexOutOfRange, (s.getV x).setWidth 16) else none
  | .opEXA1 x => if 0xF < (s.getV x).toNat then some (.keyIndexOutOfRange, (s.getV x).setWidth 16) else none
  | .opFX07 _ => none
  | .opFX0A _ => none
  | .opFX15 _ => none
  | .opFX18 _ => none
  | .opFX1E x => if 0xFFF < s.I.toNat + (s.getV x).toNat then some (.addressOutOfRange, BitVec.ofNat 16 (s.I.toNat + (s.getV x).toNat)) else none
  | .opFX29 _ => none
  | .opFX33 _ => if 0xFFF < s.I.toNat + 2 then some (.addressOutOfRange, 0x1000) else none
  | .opFX55 x => if 0xFFF < s.I.toNat + x.val then some (.addressOutOfRange, 0x1000) else none
  | .opFX65 x => if 0xFFF < s.I.toNat + x.val then some (.addressOutOfRange, 0x1000) else none

/-- The instruction writes register `k` as its destination (R30). -/
def namesDestination (i : Instr) (k : Reg) : Bool :=
  match i with
  | .op00E0 => false
  | .op00EE => false
  | .op1NNN _ => false
  | .op2NNN _ => false
  | .op3XNN _ _ => false
  | .op4XNN _ _ => false
  | .op5XY0 _ _ => false
  | .op6XNN x _ => decide (k = x)
  | .op7XNN x _ => decide (k = x)
  | .op8XY0 x _ => decide (k = x)
  | .op8XY1 x _ => decide (k = x)
  | .op8XY2 x _ => decide (k = x)
  | .op8XY3 x _ => decide (k = x)
  | .op8XY4 x _ => decide (k = x)
  | .op8XY5 x _ => decide (k = x)
  | .op8XY6 x _ => decide (k = x)
  | .op8XY7 x _ => decide (k = x)
  | .op8XYE x _ => decide (k = x)
  | .op9XY0 _ _ => false
  | .opANNN _ => false
  | .opBNNN _ => false
  | .opCXNN x _ => decide (k = x)
  | .opDXYN _ _ _ => false
  | .opEX9E _ => false
  | .opEXA1 _ => false
  | .opFX07 x => decide (k = x)
  | .opFX0A x => decide (k = x)
  | .opFX15 _ => false
  | .opFX18 _ => false
  | .opFX1E _ => false
  | .opFX29 _ => false
  | .opFX33 _ => false
  | .opFX55 _ => false
  | .opFX65 x => decide (k ≤ x)

/-- The instruction writes VF as its flag (R31). -/
def writesFlag (i : Instr) : Bool :=
  match i with
  | .op00E0 => false
  | .op00EE => false
  | .op1NNN _ => false
  | .op2NNN _ => false
  | .op3XNN _ _ => false
  | .op4XNN _ _ => false
  | .op5XY0 _ _ => false
  | .op6XNN _ _ => false
  | .op7XNN _ _ => false
  | .op8XY0 _ _ => false
  | .op8XY1 _ _ => false
  | .op8XY2 _ _ => false
  | .op8XY3 _ _ => false
  | .op8XY4 _ _ => true
  | .op8XY5 _ _ => true
  | .op8XY6 _ _ => true
  | .op8XY7 _ _ => true
  | .op8XYE _ _ => true
  | .op9XY0 _ _ => false
  | .opANNN _ => false
  | .opBNNN _ => false
  | .opCXNN _ _ => false
  | .opDXYN _ _ _ => true
  | .opEX9E _ => false
  | .opEXA1 _ => false
  | .opFX07 _ => false
  | .opFX0A _ => false
  | .opFX15 _ => false
  | .opFX18 _ => false
  | .opFX1E _ => false
  | .opFX29 _ => false
  | .opFX33 _ => false
  | .opFX55 _ => false
  | .opFX65 _ => false

/-- A sprite bit that is 1 lands on the pixel at column p and row q: bit 7 - c of the byte at I + r, for a row r below n
and a column c below 8 (R291). -/
def SpriteBitOn (s : State) (x y : Reg) (n : Nat) (p : Fin 64) (q : Fin 32) : Prop :=
  ∃ r c : Nat, r < n ∧ c < 8 ∧ (s.readByte (s.I.toNat + r)).getLsbD (7 - c) = true ∧
    ((s.getV x).toNat + c) % 64 = p.val ∧ ((s.getV y).toNat + r) % 32 = q.val

/-- The transaction is a host key-down (R363). -/
def isKeyDown (e : Transaction) : Bool :=
  match e with
  | .step => false
  | .host .delayTick => false
  | .host .soundTick => false
  | .host (.keyDown _) => true
  | .host (.keyUp _) => false
  | .host (.supplyRandom _) => false

/-- The word matches one of the six classes of unrecognized words (R106). -/
def UnrecognizedClass (w : Word) : Prop :=
  (fieldC w = 0x0 ∧ w ≠ 0x00E0 ∧ w ≠ 0x00EE) ∨
  (fieldC w = 0x5 ∧ fieldN w ≠ 0) ∨
  (fieldC w = 0x8 ∧ (fieldN w = 0x8 ∨ fieldN w = 0x9 ∨ fieldN w = 0xA ∨ fieldN w = 0xB ∨ fieldN w = 0xC ∨
    fieldN w = 0xD ∨ fieldN w = 0xF)) ∨
  (fieldC w = 0x9 ∧ fieldN w ≠ 0) ∨
  (fieldC w = 0xE ∧ fieldNN w ≠ 0x9E ∧ fieldNN w ≠ 0xA1) ∨
  (fieldC w = 0xF ∧ fieldNN w ∉ [0x07, 0x0A, 0x15, 0x18, 0x1E, 0x29, 0x33, 0x55, 0x65])

end Sys2Proof.Claims

open Sys2Proof Sys2Proof.Machine Sys2Proof.Claims

/-! ### Encoding and decoding (spec 30_encoding.md) -/

/-- The decoder reads every well-formed instruction back from its encoding, with every operand value. -/
def Obligations.EncodedInstructionsDecodeToThemselves : Prop :=
  ∀ i : Instr, i.wf = true → decodeWord (encode i) = some i

/-- Every bit of a recognized word is fixed or a field: the word is the encoding of what it decodes to, and that is
well formed. -/
def Obligations.RecognizedWordsEncodeBack : Prop :=
  ∀ (w : Word) (i : Instr), decodeWord w = some i → encode i = w ∧ i.wf = true

/-- R104: for each of the 34 rows, a word decodes to that row's instruction exactly when its bits under the mask are the
match value. -/
def Obligations.DecodingIsMaskAndMatch : Prop :=
  opcodeTable.length = 34 ∧
  ∀ (w : Word) (r : OpcodeRow), r ∈ opcodeTable →
    (w &&& r.mask = r.pattern ↔ ∃ i, decodeWord w = some i ∧ i.row = r)

/-- R105: every word matches at most one row, and it is unrecognized exactly when it matches none. -/
def Obligations.RowsAreDisjointAndDecideRecognition : Prop :=
  ∀ w : Word, (opcodeTable.filter fun r => w &&& r.mask = r.pattern).length ≤ 1 ∧
    (decodeWord w = none ↔ ∀ r ∈ opcodeTable, ¬(w &&& r.mask = r.pattern))

/-- The unrecognized words are exactly those of the six classes of R106 (the spec derives the classes from R104). -/
def Obligations.UnrecognizedWordsAreTheSixClasses : Prop :=
  ∀ w : Word, decodeWord w = none ↔ UnrecognizedClass w

/-- One word of each format, written out from the encodings of R104, and three unrecognized words. -/
def Obligations.SampleWordsDecodeAsTheSpecSays : Prop :=
  decodeWord 0b0000000011101110 = some .op00EE ∧
  decodeWord 0b0010001100000000 = some (.op2NNN 0x300) ∧
  decodeWord 0b0111001100000001 = some (.op7XNN 3 0x01) ∧
  decodeWord 0b1000000100101110 = some (.op8XYE 1 2) ∧
  decodeWord 0b1101000000010101 = some (.opDXYN 0 1 5) ∧
  decodeWord 0b1110001010100001 = some (.opEXA1 2) ∧
  decodeWord 0b1111010100110011 = some (.opFX33 5) ∧
  decodeWord 0b0000000100100011 = none ∧
  decodeWord 0b1000000100101000 = none ∧
  decodeWord 0b1111000100000000 = none

/-! ### The step (spec 40_pipeline.md) -/

/-- A step runs the instruction whose encoding stands at pc: it is `exec` of it at the state with pc advanced by 2
(R133, R134, R135, R137). -/
def Obligations.StepRunsTheDecodedInstruction : Prop :=
  ∀ (s : State) (i : Instr), i.wf = true → FetchesWord s (encode i) → step s = exec i { s with pc := s.pc + 2 }

/-- R142: an unrecognized word is skipped; pc advances by 2, nothing else changes, and the event is reported. -/
def Obligations.StepSkipsAnUnrecognizedWord : Prop :=
  ∀ (s : State) (w : Word), FetchesWord s w → decodeWord w = none →
    step s = .next { s with pc := s.pc + 2 } ∧ stepReport s = .unknown s.pc w

/-- R130: while a fault is latched a step changes nothing and reports Halted. -/
def Obligations.HaltedStepChangesNothing : Prop :=
  ∀ s : State, s.FAULT ≠ none → step s = .next s ∧ stepReport s = .halted

/-- R131: with pc at or beyond ROM_END a step changes nothing and reports Idle; below 0x200 the core is not idle. -/
def Obligations.IdleStepChangesNothing : Prop :=
  ∀ s : State, s.FAULT = none →
    (s.pc.toNat ≥ s.ROM_END → step s = .next s ∧ stepReport s = .idle) ∧
    (s.pc.toNat < s.ROM_END → stepReport s ≠ .idle)

/-- R132: a fetch with pc + 1 above 0xFFF latches AddressOutOfRange with opcode 0 and detail 0x1000, pc unchanged; with
ROM_END at most 0x1000 this is pc = 0xFFF under a ROM of the maximum length only. -/
def Obligations.FetchPastMemoryFaults : Prop :=
  ∀ s : State, s.FAULT = none → s.pc.toNat < s.ROM_END → s.pc.toNat + 1 > 0xFFF →
    step s = .next { s with FAULT := some ⟨.addressOutOfRange, s.pc, 0, 0x1000⟩ } ∧
    (s.ROM_END ≤ 0x1000 → s.pc = 0xFFF ∧ s.ROM_END = 0x200 + 3584)

/-- Every step answers a next state: no state and no memory contents make the model stop (R141: every outcome of a step
leaves a state). -/
def Obligations.EveryStepAnswersANextState : Prop := ∀ s : State, ∃ t, step s = .next t

/-- R350 to R353: a step that is neither halted nor idle latches exactly the fault of the table of these rules, recorded
with the instruction's address and its word (0 for the fetch), and no fault otherwise; the kinds have the codes 1 to 4. -/
def Obligations.StepLatchesExactlyTheTabledFault : Prop :=
  FaultKind.addressOutOfRange.code = 1 ∧ FaultKind.stackOverflow.code = 2 ∧ FaultKind.stackUnderflow.code = 3 ∧
  FaultKind.keyIndexOutOfRange.code = 4 ∧
  ∀ s : State, s.FAULT = none → s.pc.toNat < s.ROM_END →
    ∃ t, step s = .next t ∧
      t.FAULT =
        if s.pc.toNat + 1 > 0xFFF then some ⟨.addressOutOfRange, s.pc, 0, 0x1000⟩
        else (decodeWord (wordAtPc s)).bind fun i =>
          (faultCondition i s).map fun kd => ⟨kd.1, s.pc, wordAtPc s, kd.2⟩

/-- R139, R357: a step that latches a fault changes nothing but FAULT; pc stands at the faulting instruction, and the
record holds its address and its word, 0 for a fetch fault, and the core is halted from then on. -/
def Obligations.FaultsArePrecise : Prop :=
  ∀ (s t : State) (r : FaultRecord), s.FAULT = none → step s = .next t → t.FAULT = some r →
    t = { s with FAULT := some r } ∧ r.pc = s.pc ∧
    r.opcode = (if s.pc.toNat + 1 > 0xFFF then 0 else wordAtPc s) ∧ stepReport s = .faulted r ∧
    step t = .next t ∧ stepReport t = .halted

/-- A step that is neither halted nor idle and latches no fault reports what it did: Unknown for an unrecognized word,
Waiting for FX0A with no pending key, Executed otherwise (R141). -/
def Obligations.StepReportsWhatItDid : Prop :=
  ∀ (s t : State) (w : Word), FetchesWord s w → step s = .next t → t.FAULT = none →
    stepReport s =
      match decodeWord w with
      | none => .unknown s.pc w
      | some i => if (∃ x, i = .opFX0A x) ∧ s.PENDING = none then .waiting s.pc else .executed s.pc w

/-! ### Invariants and whole-machine rules -/

/-- Every step keeps the invariant of Safety.lean. -/
def Obligations.StepKeepsTheInvariant : Prop := ∀ s t : State, s.Inv → step s = .next t → t.Inv

/-- The state after reset has the invariant, whatever SHIFT_QUIRK and FONT are. -/
def Obligations.ResetHasTheInvariant : Prop :=
  (∀ (quirk : ShiftQuirk) (font : Font), (State.resetWith quirk font).Inv) ∧ State.reset.Inv

/-- A reset that accepts its ROM leaves a state with the invariant. -/
def Obligations.LoadedStateHasTheInvariant : Prop :=
  ∀ (quirk : ShiftQuirk) (font : Font) (rom : Option (List Byte)) (s : State),
    hostReset quirk font rom = .next s → s.Inv

/-- Every host operation keeps the invariant, in a halted state too. -/
def Obligations.HostOperationsKeepTheInvariant : Prop := ∀ (op : HostOp) (s : State), s.Inv → (applyHostOp op s).Inv

/-- In every state a run reaches: pc is at most 0x10FE, bits 15 to 12 of I are 0, S[0] is 0, ROM_END is at most 0x1000,
and memory is in canonical form (R34, R36, R37, R46). -/
def Obligations.ReachableStatesStayInBounds : Prop :=
  ∀ s : State, Reachable s →
    s.pc.toNat ≤ 0x10FE ∧ s.I.toNat ≤ 0xFFF ∧ s.S[(0 : Fin 16)] = 0 ∧ s.ROM_END ≤ 0x1000 ∧ s.M.wf

/-- The end of a run is permanent (R143): from an idle or halted state every sequence of steps and host operations leaves
an idle or halted state in which nothing has changed but the timers, the keypad, the pending key and the random
supply. -/
def Obligations.EndedRunsStayEnded : Prop :=
  ∀ (es : List Transaction) (s : State), s.ended = true →
    ∃ t, runTransactions es s = .next t ∧ t.ended = true ∧
      t = { s with DT := t.DT, ST := t.ST, KEY := t.KEY, PENDING := t.PENDING, rndSupply := t.rndSupply }

/-- No transaction changes ROM_END (R46) or a parameter, and no step writes the keypad (R41) or adds to the random
supply. -/
def Obligations.ConstantsAndKeypadAreNotWritten : Prop :=
  (∀ (e : Transaction) (s t : State), applyTransaction e s = .next t →
    t.ROM_END = s.ROM_END ∧ t.SHIFT_QUIRK = s.SHIFT_QUIRK ∧ t.M.font = s.M.font) ∧
  (∀ s t : State, step s = .next t → t.KEY = s.KEY ∧ (t.rndSupply = s.rndSupply ∨ t.rndSupply = s.rndSupply.tail))

/-- Each piece of state is written by no other instructions than those the spec names: I by ANNN, FX1E and FX29 (R36), sp
and the stack by 2NNN and 00EE (R38), DT by FX15 (R39), ST by FX18 (R40), PENDING by FX0A (R42), the framebuffer by
00E0 and DXYN (R43), memory by FX33 and FX55 (R70). No instruction ticks a timer (R431). -/
def Obligations.OnlyTheNamedInstructionsWrite : Prop :=
  ∀ (i : Instr) (s t : State), exec i s = .next t →
    (t.I ≠ s.I → (∃ a, i = .opANNN a) ∨ (∃ x, i = .opFX1E x) ∨ ∃ x, i = .opFX29 x) ∧
    (t.sp ≠ s.sp → (∃ a, i = .op2NNN a) ∨ i = .op00EE) ∧
    (t.S ≠ s.S → ∃ a, i = .op2NNN a) ∧
    (t.DT ≠ s.DT → ∃ x, i = .opFX15 x) ∧
    (t.ST ≠ s.ST → ∃ x, i = .opFX18 x) ∧
    (t.PENDING ≠ s.PENDING → ∃ x, i = .opFX0A x) ∧
    (t.FB ≠ s.FB → i = .op00E0 ∨ ∃ x y n, i = .opDXYN x y n) ∧
    (t.M ≠ s.M → (∃ x, i = .opFX33 x) ∨ ∃ x, i = .opFX55 x)

/-- A general register changes only as a destination or, for VF, as the flag (R30, R31); an instruction that writes the
flag and has no other destination in VF leaves 0 or 1 there, unless it faults. -/
def Obligations.RegistersChangeOnlyWhereNamed : Prop :=
  ∀ (i : Instr) (s t : State), exec i s = .next t →
    (∀ k, t.getV k ≠ s.getV k → namesDestination i k = true ∨ (k = vF ∧ writesFlag i = true)) ∧
    (writesFlag i = true → namesDestination i vF = false → s.FAULT = none → t.FAULT = none →
      t.getV vF = 0 ∨ t.getV vF = 1)

/-! ### Register, arithmetic, logic, shift and random instructions (spec 42_alu_shift.md) -/

/-- R205: 6XNN loads NN into Vx and changes nothing else. -/
def Obligations.LoadImmediateWritesVx : Prop :=
  ∀ (x : Reg) (nn : Byte) (s : State), EncodesAs (.op6XNN x nn) (0x6000 + 0x100 * x.val + nn.toNat) ∧
    ∃ t, exec (.op6XNN x nn) s = .next t ∧ WritesOnly x nn s t

/-- R206: 7XNN adds NN to Vx modulo 256; no flag, nothing else changes. -/
def Obligations.AddImmediateWrapsWithoutFlag : Prop :=
  ∀ (x : Reg) (nn : Byte) (s : State), EncodesAs (.op7XNN x nn) (0x7000 + 0x100 * x.val + nn.toNat) ∧
    ∃ t, exec (.op7XNN x nn) s = .next t ∧
    (t.getV x).toNat = ((s.getV x).toNat + nn.toNat) % 256 ∧
    (∀ k, k ≠ x → t.getV k = s.getV k) ∧ ChangesOnlyV s t

/-- R207 to R210: 8XY0 copies Vy, 8XY1, 8XY2 and 8XY3 combine Vx and Vy bitwise; VF is not reset and nothing else
changes. -/
def Obligations.CopyAndLogicWriteVxOnly : Prop :=
  ∀ (x y : Reg) (s : State),
    EncodesAs (.op8XY0 x y) (0x8000 + 0x100 * x.val + 0x10 * y.val) ∧
    EncodesAs (.op8XY1 x y) (0x8001 + 0x100 * x.val + 0x10 * y.val) ∧
    EncodesAs (.op8XY2 x y) (0x8002 + 0x100 * x.val + 0x10 * y.val) ∧
    EncodesAs (.op8XY3 x y) (0x8003 + 0x100 * x.val + 0x10 * y.val) ∧
    (∃ t, exec (.op8XY0 x y) s = .next t ∧ WritesOnly x (s.getV y) s t) ∧
    (∃ t, exec (.op8XY1 x y) s = .next t ∧ WritesOnly x (s.getV x ||| s.getV y) s t) ∧
    (∃ t, exec (.op8XY2 x y) s = .next t ∧ WritesOnly x (s.getV x &&& s.getV y) s t) ∧
    (∃ t, exec (.op8XY3 x y) s = .next t ∧ WritesOnly x (s.getV x ^^^ s.getV y) s t)

/-- R211: 8XY4 writes the sum modulo 256 to Vx and the carry to VF; with X = F the sum stays. -/
def Obligations.AddWithCarryResultAndFlag : Prop :=
  ∀ (x y : Reg) (s : State), EncodesAs (.op8XY4 x y) (0x8004 + 0x100 * x.val + 0x10 * y.val) ∧
    ∃ t, exec (.op8XY4 x y) s = .next t ∧
    (t.getV x).toNat = ((s.getV x).toNat + (s.getV y).toNat) % 256 ∧
    (x ≠ vF → t.getV vF = if (s.getV x).toNat + (s.getV y).toNat > 255 then 1 else 0) ∧
    (∀ k, k ≠ x → k ≠ vF → t.getV k = s.getV k) ∧ ChangesOnlyV s t

/-- R212, R214: 8XY5 writes Vx - Vy and 8XY7 writes Vy - Vx, modulo 256, to Vx and the no-borrow flag to VF; with X = F
the difference stays. -/
def Obligations.SubtractResultAndNoBorrow : Prop :=
  ∀ (x y : Reg) (s : State),
    EncodesAs (.op8XY5 x y) (0x8005 + 0x100 * x.val + 0x10 * y.val) ∧
    EncodesAs (.op8XY7 x y) (0x8007 + 0x100 * x.val + 0x10 * y.val) ∧
    (∃ t, exec (.op8XY5 x y) s = .next t ∧
      ((t.getV x).toNat : Int) = (((s.getV x).toNat : Int) - (s.getV y).toNat) % 256 ∧
      (x ≠ vF → t.getV vF = if (s.getV x).toNat ≥ (s.getV y).toNat then 1 else 0) ∧
      (∀ k, k ≠ x → k ≠ vF → t.getV k = s.getV k) ∧ ChangesOnlyV s t) ∧
    (∃ t, exec (.op8XY7 x y) s = .next t ∧
      ((t.getV x).toNat : Int) = (((s.getV y).toNat : Int) - (s.getV x).toNat) % 256 ∧
      (x ≠ vF → t.getV vF = if (s.getV y).toNat ≥ (s.getV x).toNat then 1 else 0) ∧
      (∀ k, k ≠ x → k ≠ vF → t.getV k = s.getV k) ∧ ChangesOnlyV s t)

/-- 8XY6 and 8XYE shift the source that SHIFT_QUIRK selects by one bit into Vx and the bit shifted out into VF; with X = F
the shifted value stays (R213, R215). That under FromVy the flag is Vy's bit and Vy is unchanged is PRESUMED (log entry 1):
the spec takes it from general knowledge (R202). -/
def Obligations.ShiftResultAndBitShiftedOut : Prop :=
  ∀ (x y : Reg) (s : State),
    EncodesAs (.op8XY6 x y) (0x8006 + 0x100 * x.val + 0x10 * y.val) ∧
    EncodesAs (.op8XYE x y) (0x800E + 0x100 * x.val + 0x10 * y.val) ∧
    (∃ t, exec (.op8XY6 x y) s = .next t ∧
      (t.getV x).toNat = (shiftSourceOf s x y).toNat / 2 ∧
      (x ≠ vF → t.getV vF = shiftSourceOf s x y &&& 1) ∧
      (∀ k, k ≠ x → k ≠ vF → t.getV k = s.getV k) ∧ ChangesOnlyV s t) ∧
    (∃ t, exec (.op8XYE x y) s = .next t ∧
      (t.getV x).toNat = ((shiftSourceOf s x y).toNat * 2) % 256 ∧
      (x ≠ vF → t.getV vF = (shiftSourceOf s x y >>> 7) &&& 1) ∧
      (∀ k, k ≠ x → k ≠ vF → t.getV k = s.getV k) ∧ ChangesOnlyV s t)

/-- CXNN writes a drawn byte ANDed with NN to Vx, so its result has no bit outside NN, and changes nothing else of the
machine; every such result is admitted, by the host supplying it (R216, R368). The supply queue and the count of draws
that move on are the model's own, a DESIGN CHOICE (log entry 4). -/
def Obligations.RandomResultStaysInTheMask : Prop :=
  ∀ (x : Reg) (nn : Byte) (s : State), EncodesAs (.opCXNN x nn) (0xC000 + 0x100 * x.val + nn.toNat) ∧
    (∀ r : Byte, r &&& ~~~nn = 0 → s.rndSupply = [] →
      ∃ t, exec (.opCXNN x nn) (s.supplyRandom r) = .next t ∧ t.getV x = r) ∧
    ∃ t, exec (.opCXNN x nn) s = .next t ∧
    (∃ rnd : Byte, t.getV x = rnd &&& nn) ∧ t.getV x &&& ~~~nn = 0 ∧
    (∀ k, k ≠ x → t.getV k = s.getV k) ∧
    t = { s with V := t.V, rndSupply := t.rndSupply, rndCount := t.rndCount } ∧ SameBytes s t

/-- Every byte can be drawn, and a supplied byte is drawn once: whatever the host supplies to a machine with nothing
supplied, the next CXNN uses it and the one after does not. This rests on the model's supply queue, a DESIGN CHOICE
(log entry 4). -/
def Obligations.EverySuppliedByteIsDrawnOnce : Prop :=
  ∀ (x : Reg) (nn rnd : Byte) (s : State), s.rndSupply = [] →
    ∃ t, exec (.opCXNN x nn) (s.supplyRandom rnd) = .next t ∧ t.getV x = rnd &&& nn ∧
      t.rndSupply = [] ∧ t.rndCount = s.rndCount

/-! ### Control flow (spec 41_control_flow.md) -/

/-- R161, R167: 1NNN jumps to NNN and BNNN to the exact sum NNN + V0; nothing else changes. -/
def Obligations.JumpsGoToTheirTarget : Prop :=
  ∀ (nnn : Addr12) (s : State),
    EncodesAs (.op1NNN nnn) (0x1000 + nnn.toNat) ∧ EncodesAs (.opBNNN nnn) (0xB000 + nnn.toNat) ∧
    (∃ t, exec (.op1NNN nnn) s = .next t ∧ t.pc.toNat = nnn.toNat ∧ ChangesOnlyPc s t) ∧
    (∃ t, exec (.opBNNN nnn) s = .next t ∧ t.pc.toNat = nnn.toNat + (s.getV 0).toNat ∧ ChangesOnlyPc s t)

/-- R162: 2NNN pushes the advanced pc into the next slot and jumps to NNN; with 15 active calls it raises StackOverflow
with detail 15 and changes nothing else. -/
def Obligations.CallPushesAndJumps : Prop :=
  ∀ (nnn : Addr12) (s : State),
    EncodesAs (.op2NNN nnn) (0x2000 + nnn.toNat) ∧
    (s.sp.val < 15 → ∃ t, exec (.op2NNN nnn) s = .next t ∧ t.pc.toNat = nnn.toNat ∧ t.sp.val = s.sp.val + 1 ∧
      (∀ k : Fin 16, t.S[k] = if k.val = s.sp.val + 1 then s.pc else s.S[k]) ∧
      t = { s with pc := t.pc, sp := t.sp, S := t.S } ∧ SameBytes s t) ∧
    (s.sp.val = 15 → exec (.op2NNN nnn) s = .next (faulted s (.op2NNN nnn) .stackOverflow 15))

/-- R160: 00EE takes pc from the top slot, which keeps its value, and frees it; with no active call it raises
StackUnderflow with detail 0 and changes nothing else. -/
def Obligations.ReturnPopsTheCaller : Prop :=
  ∀ s : State,
    EncodesAs .op00EE 0x00EE ∧
    (0 < s.sp.val → ∃ t, exec .op00EE s = .next t ∧ t.pc = s.S[s.sp] ∧ t.sp.val = s.sp.val - 1 ∧
      t = { s with pc := t.pc, sp := t.sp } ∧ SameBytes s t) ∧
    (s.sp.val = 0 → exec .op00EE s = .next (faulted s .op00EE .stackUnderflow 0))

/-- A return right after a call undoes it: pc is the address after the call and sp its prior value (R160, R162). -/
def Obligations.ReturnUndoesCall : Prop :=
  ∀ (nnn : Addr12) (s : State), s.sp.val < 15 →
    ∃ t u, exec (.op2NNN nnn) s = .next t ∧ exec .op00EE t.advance = .next u ∧ u.pc = s.pc ∧ u.sp = s.sp ∧
      u = { s with S := u.S }

/-- R163 to R166: 3XNN, 4XNN, 5XY0 and 9XY0 advance pc by 2 more exactly when their comparison holds; nothing else
changes. -/
def Obligations.SkipsAdvanceExactlyOnTheirCondition : Prop :=
  ∀ (x y : Reg) (nn : Byte) (s : State),
    EncodesAs (.op3XNN x nn) (0x3000 + 0x100 * x.val + nn.toNat) ∧
    EncodesAs (.op4XNN x nn) (0x4000 + 0x100 * x.val + nn.toNat) ∧
    EncodesAs (.op5XY0 x y) (0x5000 + 0x100 * x.val + 0x10 * y.val) ∧
    EncodesAs (.op9XY0 x y) (0x9000 + 0x100 * x.val + 0x10 * y.val) ∧
    (∃ t, exec (.op3XNN x nn) s = .next t ∧ t.pc = (if s.getV x = nn then s.pc + 2 else s.pc) ∧ ChangesOnlyPc s t) ∧
    (∃ t, exec (.op4XNN x nn) s = .next t ∧ t.pc = (if s.getV x = nn then s.pc else s.pc + 2) ∧ ChangesOnlyPc s t) ∧
    (∃ t, exec (.op5XY0 x y) s = .next t ∧ t.pc = (if s.getV x = s.getV y then s.pc + 2 else s.pc) ∧
      ChangesOnlyPc s t) ∧
    (∃ t, exec (.op9XY0 x y) s = .next t ∧ t.pc = (if s.getV x = s.getV y then s.pc else s.pc + 2) ∧
      ChangesOnlyPc s t)

/-! ### Index register and load-store (spec 43_index_loadstore.md) -/

/-- R250, R252: ANNN loads NNN into I and FX29 the address of the glyph of Vx's low nibble; nothing else changes. -/
def Obligations.IndexLoads : Prop :=
  ∀ (nnn : Addr12) (x : Reg) (s : State),
    EncodesAs (.opANNN nnn) (0xA000 + nnn.toNat) ∧ EncodesAs (.opFX29 x) (0xF029 + 0x100 * x.val) ∧
    (∃ t, exec (.opANNN nnn) s = .next t ∧ t.I.toNat = nnn.toNat ∧ ChangesOnlyI s t) ∧
    (∃ t, exec (.opFX29 x) s = .next t ∧ t.I.toNat = (s.getV x &&& 0xF).toNat * 5 ∧ ChangesOnlyI s t)

/-- R251: FX1E adds Vx to I; where the exact sum exceeds 0xFFF it raises AddressOutOfRange with the sum as detail and I is
unchanged. VF is not written. -/
def Obligations.AddToIndexOrFault : Prop :=
  ∀ (x : Reg) (s : State),
    EncodesAs (.opFX1E x) (0xF01E + 0x100 * x.val) ∧
    (s.I.toNat + (s.getV x).toNat ≤ 0xFFF →
      ∃ t, exec (.opFX1E x) s = .next t ∧ t.I.toNat = s.I.toNat + (s.getV x).toNat ∧ ChangesOnlyI s t) ∧
    (s.I.toNat + (s.getV x).toNat > 0xFFF →
      exec (.opFX1E x) s =
        .next (faulted s (.opFX1E x) .addressOutOfRange (BitVec.ofNat 16 (s.I.toNat + (s.getV x).toNat))))

/-- R253: FX33 stores the three decimal digits of Vx at I, I + 1, I + 2 and changes no other byte and nothing else; where
I + 2 exceeds 0xFFF it raises AddressOutOfRange and writes nothing. -/
def Obligations.BcdStoresThreeDigits : Prop :=
  ∀ (x : Reg) (s : State), s.M.wf →
    EncodesAs (.opFX33 x) (0xF033 + 0x100 * x.val) ∧
    (s.I.toNat + 2 ≤ 0xFFF → ∃ t, exec (.opFX33 x) s = .next t ∧
      (t.readByte s.I.toNat).toNat = (s.getV x).toNat / 100 ∧
      (t.readByte (s.I.toNat + 1)).toNat = ((s.getV x).toNat / 10) % 10 ∧
      (t.readByte (s.I.toNat + 2)).toNat = (s.getV x).toNat % 10 ∧
      SameBytesOutside s.I.toNat 3 s t ∧ t = { s with M := t.M }) ∧
    (s.I.toNat + 2 > 0xFFF → exec (.opFX33 x) s = .next (faulted s (.opFX33 x) .addressOutOfRange 0x1000))

/-- R254: FX55 stores V0 to Vx at I to I + X and changes no other byte and nothing else, I included; where I + X exceeds
0xFFF it raises AddressOutOfRange and writes nothing. -/
def Obligations.RegisterDumpStoresV0ToVx : Prop :=
  ∀ (x : Reg) (s : State), s.M.wf →
    EncodesAs (.opFX55 x) (0xF055 + 0x100 * x.val) ∧
    (s.I.toNat + x.val ≤ 0xFFF → ∃ t, exec (.opFX55 x) s = .next t ∧
      (∀ k : Reg, k ≤ x → t.readByte (s.I.toNat + k.val) = s.getV k) ∧
      SameBytesOutside s.I.toNat (x.val + 1) s t ∧ t = { s with M := t.M }) ∧
    (s.I.toNat + x.val > 0xFFF → exec (.opFX55 x) s = .next (faulted s (.opFX55 x) .addressOutOfRange 0x1000))

/-- R255: FX65 loads V0 to Vx from I to I + X and changes nothing else, I included; where I + X exceeds 0xFFF it raises
AddressOutOfRange and writes no register. -/
def Obligations.RegisterLoadReadsV0ToVx : Prop :=
  ∀ (x : Reg) (s : State),
    EncodesAs (.opFX65 x) (0xF065 + 0x100 * x.val) ∧
    (s.I.toNat + x.val ≤ 0xFFF → ∃ t, exec (.opFX65 x) s = .next t ∧
      (∀ k : Reg, t.getV k = if k ≤ x then s.readByte (s.I.toNat + k.val) else s.getV k) ∧ ChangesOnlyV s t) ∧
    (s.I.toNat + x.val > 0xFFF → exec (.opFX65 x) s = .next (faulted s (.opFX65 x) .addressOutOfRange 0x1000))

/-- A dump followed by a load of the same registers changes no register: what FX55 stored, FX65 reads (R84, R254,
R255). -/
def Obligations.LoadAfterDumpRestoresRegisters : Prop :=
  ∀ (x : Reg) (s : State), s.M.wf → s.I.toNat + x.val ≤ 0xFFF →
    ∃ t u, exec (.opFX55 x) s = .next t ∧ exec (.opFX65 x) t.advance = .next u ∧ u.V = s.V

/-- A byte stored by FX55 is seen by the fetch of the very next step (R87): a dump onto the next instruction makes the
next step run what V0 and V1 encode. -/
def Obligations.StoredCodeRunsAtTheNextStep : Prop :=
  ∀ (x : Reg) (i : Instr) (s t : State), s.M.wf → i.wf = true → 1 ≤ x.val → s.FAULT = none →
    s.pc.toNat < s.ROM_END → s.I = s.pc → s.I.toNat + x.val ≤ 0xFFF →
    wordOfBytes (s.getV 0) (s.getV 1) = encode i → exec (.opFX55 x) s = .next t →
    step t = exec i { t with pc := t.pc + 2 }

/-! ### Display (spec 44_display.md) -/

/-- R290: 00E0 clears every pixel and changes nothing else. -/
def Obligations.ClearBlanksEveryPixel : Prop :=
  ∀ s : State, EncodesAs .op00E0 0x00E0 ∧ ∃ t, exec .op00E0 s = .next t ∧ (∀ p q, t.FB.pixel p q = false) ∧
    t = { s with FB := t.FB } ∧ SameBytes s t

/-- DXYN leaves every pixel XORed with the sprite bit that lands on it, with wraparound, and VF = 1 exactly when a set
pixel was hit, else 0, whatever X and Y are; nothing else changes (R291, and R292, which the spec derives from it).
Where a row lies past memory it raises AddressOutOfRange and draws nothing. -/
def Obligations.DrawXorsTheSpriteAndReportsCollision : Prop :=
  ∀ (x y : Reg) (n : Nat) (s : State), n ≤ 15 →
    EncodesAs (.opDXYN x y n) (0xD000 + 0x100 * x.val + 0x10 * y.val + n) ∧
    ((n = 0 ∨ s.I.toNat + n - 1 ≤ 0xFFF) → ∃ t, exec (.opDXYN x y n) s = .next t ∧
      (∀ p q, t.FB.pixel p q = true ↔ ¬(s.FB.pixel p q = true ↔ SpriteBitOn s x y n p q)) ∧
      ((∃ p q, SpriteBitOn s x y n p q ∧ s.FB.pixel p q = true) → t.getV vF = 1) ∧
      ((∀ p q, SpriteBitOn s x y n p q → s.FB.pixel p q = false) → t.getV vF = 0) ∧
      (∀ k, k ≠ vF → t.getV k = s.getV k) ∧ t = { s with FB := t.FB, V := t.V } ∧ SameBytes s t) ∧
    (1 ≤ n ∧ s.I.toNat + n - 1 > 0xFFF →
      exec (.opDXYN x y n) s = .next (faulted s (.opDXYN x y n) .addressOutOfRange 0x1000))

/-- Drawing the same sprite twice at the same place restores every pixel, and the second draw collides exactly when the
sprite has a bit that landed on a blank pixel (R291's worked example; X and Y are not F, whose register the draw
writes). -/
def Obligations.DrawingTwiceRestoresTheScreen : Prop :=
  ∀ (x y : Reg) (n : Nat) (s : State), n ≤ 15 → x ≠ vF → y ≠ vF → (n = 0 ∨ s.I.toNat + n - 1 ≤ 0xFFF) →
    ∃ t u, exec (.opDXYN x y n) s = .next t ∧ exec (.opDXYN x y n) t = .next u ∧ u.FB = s.FB ∧
      (u.getV vF = 1 ↔ ∃ p q, SpriteBitOn s x y n p q ∧ s.FB.pixel p q = false)

/-! ### Timers and keypad (spec 45_timers_keypad.md) -/

/-- R320, R321: EX9E and EXA1 skip exactly when the key that Vx names is pressed, or is not pressed; nothing else changes.
Where Vx exceeds 0xF they raise KeyIndexOutOfRange with Vx as detail. -/
def Obligations.KeySkipsReadTheKeyLevel : Prop :=
  ∀ (x : Reg) (s : State),
    EncodesAs (.opEX9E x) (0xE09E + 0x100 * x.val) ∧ EncodesAs (.opEXA1 x) (0xE0A1 + 0x100 * x.val) ∧
    (∀ k : Key, (s.getV x).toNat = k.val →
      (∃ t, exec (.opEX9E x) s = .next t ∧ t.pc = (if s.KEY[k] = true then s.pc + 2 else s.pc) ∧ ChangesOnlyPc s t) ∧
      (∃ t, exec (.opEXA1 x) s = .next t ∧ t.pc = (if s.KEY[k] = true then s.pc else s.pc + 2) ∧
        ChangesOnlyPc s t)) ∧
    ((s.getV x).toNat > 0xF →
      exec (.opEX9E x) s = .next (faulted s (.opEX9E x) .keyIndexOutOfRange ((s.getV x).setWidth 16)) ∧
      exec (.opEXA1 x) s = .next (faulted s (.opEXA1 x) .keyIndexOutOfRange ((s.getV x).setWidth 16)))

/-- R322, R324, R325: FX07 copies DT into Vx, FX15 loads Vx into DT and FX18 into ST; nothing else changes. -/
def Obligations.TimerReadsAndWrites : Prop :=
  ∀ (x : Reg) (s : State),
    EncodesAs (.opFX07 x) (0xF007 + 0x100 * x.val) ∧ EncodesAs (.opFX15 x) (0xF015 + 0x100 * x.val) ∧
    EncodesAs (.opFX18 x) (0xF018 + 0x100 * x.val) ∧
    (∃ t, exec (.opFX07 x) s = .next t ∧ WritesOnly x s.DT s t) ∧
    (∃ t, exec (.opFX15 x) s = .next t ∧ t = { s with DT := s.getV x } ∧ SameBytes s t) ∧
    (∃ t, exec (.opFX18 x) s = .next t ∧ t = { s with ST := s.getV x } ∧ SameBytes s t)

/-- R323: with a pending key FX0A writes its number to Vx and consumes it; with none it rewinds pc by 2, so that
the step leaves the state as it was and reports Waiting. Nothing else changes. -/
def Obligations.KeyWaitConsumesThePendingKey : Prop :=
  ∀ (x : Reg) (s : State),
    EncodesAs (.opFX0A x) (0xF00A + 0x100 * x.val) ∧
    (∀ k : Key, s.PENDING = some k → ∃ t, exec (.opFX0A x) s = .next t ∧ (t.getV x).toNat = k.val ∧
      (∀ j, j ≠ x → t.getV j = s.getV j) ∧ t = { s with V := t.V, PENDING := none } ∧ SameBytes s t) ∧
    (s.PENDING = none → exec (.opFX0A x) s = .next { s with pc := s.pc - 2 }) ∧
    (FetchesWord s (encode (.opFX0A x)) → s.PENDING = none → step s = .next s ∧ stepReport s = .waiting s.pc)

/-- While no key is pending FX0A waits: steps alone leave the state as it was, and after any transactions without a
key-down nothing has changed but DT, ST, KEY and the model's random supply, and the next step again reports Waiting. Only a
host key-down lets it complete, and then the very next step does (R323, R423). -/
def Obligations.KeyWaitNeedsAKeyDown : Prop :=
  ∀ (x : Reg) (s : State), FetchesWord s (encode (.opFX0A x)) → s.PENDING = none →
    (∀ n, runTransactions (List.replicate n .step) s = .next s) ∧
    ∀ es : List Transaction, (∀ e ∈ es, isKeyDown e = false) →
      ∃ t, runTransactions es s = .next t ∧
        t = { s with DT := t.DT, ST := t.ST, KEY := t.KEY, rndSupply := t.rndSupply } ∧ stepReport t = .waiting s.pc ∧
        ∀ k : Key, ∃ u, step (t.keyDown k) = .next u ∧ (u.getV x).toNat = k.val ∧
          (∀ j, j ≠ x → u.getV j = s.getV j) ∧ u.PENDING = none ∧ u.pc = s.pc + 2

/-! ### The host's operations and reset (spec 60_exceptions.md, 70_reset_and_hazards.md) -/

/-- R361 to R364: a tick takes 1 from its timer unless it is 0; key-down sets the key and records it as pending; key-up
clears the key and leaves PENDING. Nothing else changes, in a halted core too. -/
def Obligations.HostTicksAndKeys : Prop :=
  ∀ (s : State) (k : Key),
    (∃ d : Byte, applyHostOp .delayTick s = { s with DT := d } ∧ d.toNat = s.DT.toNat - 1) ∧
    (∃ d : Byte, applyHostOp .soundTick s = { s with ST := d } ∧ d.toNat = s.ST.toNat - 1) ∧
    (∃ keys : Vector Bool 16, applyHostOp (.keyDown k) s = { s with KEY := keys, PENDING := some k } ∧
      ∀ j : Key, keys[j] = if j = k then true else s.KEY[j]) ∧
    (∃ keys : Vector Bool 16, applyHostOp (.keyUp k) s = { s with KEY := keys } ∧
      ∀ j : Key, keys[j] = if j = k then false else s.KEY[j])

/-- R365, R366, R367: the reads return the framebuffer, ST, and Halted with the record, Idle or Running. -/
def Obligations.HostReads : Prop :=
  ∀ s : State, s.framebuffer = s.FB ∧ s.soundSignal = s.ST ∧
    (∀ r, s.FAULT = some r → s.status = .halted r) ∧
    (s.FAULT = none → s.status = if s.pc.toNat ≥ s.ROM_END then .idle else .running)

/-- After a reset with an accepted ROM, memory holds FONT at 0x000, the ROM at 0x200 and 0 elsewhere, ROM_END is the end of
the ROM, pc is 0x200, and every other element is 0, false or none (R401 to R403, R405 to R411). The clause on SHIFT_QUIRK
is the model's DESIGN CHOICE (log entry 1): the spec's reset takes ROM and FONT only, and the model's carries that
parameter too. -/
def Obligations.ResetPlacesFontAndRom : Prop :=
  ∀ (quirk : ShiftQuirk) (font : Font) (rom : List Byte), 1 ≤ rom.length → rom.length ≤ 3584 →
    ∃ s, hostReset quirk font (some rom) = .next s ∧
      (∀ (d : Fin 16) (r : Fin 5), s.readByte (5 * d.val + r.val) = font[d][r]) ∧
      (∀ (a : Nat) (h : a < rom.length), s.readByte (0x200 + a) = rom[a]) ∧
      (∀ a, 0x50 ≤ a → a < 0x200 ∨ (0x200 + rom.length ≤ a ∧ a ≤ 0xFFF) → s.readByte a = 0) ∧
      s.ROM_END = 0x200 + rom.length ∧ s.pc = 0x200 ∧ (∀ k, s.getV k = 0) ∧ s.I = 0 ∧ s.sp = 0 ∧
      (∀ k : Fin 16, s.S[k] = 0) ∧ s.DT = 0 ∧ s.ST = 0 ∧ (∀ p q, s.FB.pixel p q = false) ∧
      (∀ k : Key, s.KEY[k] = false) ∧ s.PENDING = none ∧ s.FAULT = none ∧ s.SHIFT_QUIRK = quirk

/-- R404: reset reports LoadError for a ROM that cannot be read, is empty or is longer than 3584 bytes, and starts no
core. -/
def Obligations.ResetRefusesABadRom : Prop :=
  ∀ (quirk : ShiftQuirk) (font : Font),
    hostReset quirk font none = .fault .loadError ∧
    ∀ rom : List Byte, rom.length = 0 ∨ rom.length > 3584 → hostReset quirk font (some rom) = .fault .loadError
end

