-- ==== Sys2Proof/Laws/Memory.lean ====
section
/-! SUPPORT. The laws of memory: read after write, and every memory operation keeps the canonical form. -/

namespace Sys2Proof.Machine

@[simp] theorem Memory.unlisted_write (m : Memory) (a k : Nat) (b : Byte) :
    (m.write a b).unlisted k = m.unlisted k := rfl

@[simp] theorem Memory.font_write (m : Memory) (a : Nat) (b : Byte) : (m.write a b).font = m.font := rfl

theorem cellsRead_eq_default_of_lt (d : Byte) (a : Nat) (l : List Host.Cell) (h : ∀ p ∈ l, a < p.1) :
    cellsRead d a l = d := by
  induction l with
  | nil => rfl
  | cons p rest ih =>
    have hp := h p (by simp)
    simp only [cellsRead]
    rw [if_neg (by omega)]
    exact ih fun q hq => h q (by simp [hq])

/-- Reading at the address just written. -/
theorem cellsRead_cellsWrite_same (d : Byte) (a : Nat) (b : Byte) (l : List Host.Cell)
    (h : l.Pairwise fun p q => p.1 < q.1) : cellsRead d a (cellsWrite d a b l) = b := by
  induction l with
  | nil => by_cases hb : b = d <;> simp [cellsWrite, cellsRead, hb]
  | cons p rest ih =>
    obtain ⟨k, c⟩ := p
    obtain ⟨hk, hrest⟩ := List.pairwise_cons.1 h
    by_cases hlt : a < k
    · by_cases hb : b = d
      · simp only [cellsWrite, if_pos hlt, if_pos hb]
        rw [hb]
        refine cellsRead_eq_default_of_lt d a _ fun q hq => ?_
        rcases List.mem_cons.1 hq with rfl | hq
        · exact hlt
        · have := hk q hq; simp only at this; omega
      · simp [cellsWrite, hlt, hb, cellsRead]
    · by_cases heq : a = k
      · subst heq
        by_cases hb : b = d
        · simp only [cellsWrite, if_neg hlt, if_pos hb, if_true]
          rw [hb]
          exact cellsRead_eq_default_of_lt d a _ hk
        · simp [cellsWrite, hb, cellsRead]
      · simp only [cellsWrite, if_neg hlt, if_neg heq, cellsRead]
        rw [if_neg (by omega)]
        exact ih hrest

/-- Reading at any other address; this needs no canonical form. -/
theorem cellsRead_cellsWrite_other (d e : Byte) (a k : Nat) (b : Byte) (l : List Host.Cell) (hne : k ≠ a) :
    cellsRead e k (cellsWrite d a b l) = cellsRead e k l := by
  induction l with
  | nil => by_cases hb : b = d <;> simp [cellsWrite, cellsRead, hb, hne.symm]
  | cons p rest ih =>
    obtain ⟨j, c⟩ := p
    by_cases hlt : a < j
    · by_cases hb : b = d <;> simp [cellsWrite, hlt, hb, cellsRead, hne.symm]
    · by_cases heq : a = j
      · subst heq
        by_cases hb : b = d <;> simp [cellsWrite, hb, cellsRead, hne.symm]
      · simp [cellsWrite, hlt, heq, cellsRead, ih]

/-- R84: a read of the byte just written gives it. -/
theorem Memory.read_write_same (m : Memory) (a : Nat) (b : Byte) (h : m.wf) : (m.write a b).read a = b :=
  cellsRead_cellsWrite_same _ a b m.cells h.1

/-- R73: a write leaves every other byte alone. -/
theorem Memory.read_write_other (m : Memory) (a k : Nat) (b : Byte) (hne : k ≠ a) :
    (m.write a b).read k = m.read k :=
  cellsRead_cellsWrite_other _ _ a k b m.cells hne

theorem mem_cellsWrite {d : Byte} {a : Nat} {b : Byte} {l : List Host.Cell} {p : Host.Cell}
    (h : p ∈ cellsWrite d a b l) : (p = (a, b) ∧ b ≠ d) ∨ p ∈ l := by
  induction l with
  | nil => by_cases hb : b = d <;> simp_all [cellsWrite]
  | cons q rest ih =>
    obtain ⟨k, c⟩ := q
    by_cases hlt : a < k
    · by_cases hb : b = d <;> simp_all [cellsWrite]
    · by_cases heq : a = k
      · by_cases hb : b = d
        · simp_all [cellsWrite]
        · simp only [cellsWrite, if_neg hlt, if_pos heq, if_neg hb, List.mem_cons] at h
          rcases h with h | h
          · exact .inl ⟨h, hb⟩
          · exact .inr (by simp [h])
      · simp only [cellsWrite, if_neg hlt, if_neg heq, List.mem_cons] at h
        rcases h with h | h
        · exact .inr (by simp [h])
        · rcases ih h with h | h
          · exact .inl h
          · exact .inr (by simp [h])

theorem pairwise_cellsWrite (d : Byte) (a : Nat) (b : Byte) (l : List Host.Cell)
    (h : l.Pairwise fun p q => p.1 < q.1) : (cellsWrite d a b l).Pairwise fun p q => p.1 < q.1 := by
  induction l with
  | nil => by_cases hb : b = d <;> simp [cellsWrite, hb]
  | cons q rest ih =>
    obtain ⟨k, c⟩ := q
    obtain ⟨hk, hrest⟩ := List.pairwise_cons.1 h
    by_cases hlt : a < k
    · by_cases hb : b = d
      · simpa [cellsWrite, hlt, hb] using h
      · simp only [cellsWrite, if_pos hlt, if_neg hb]
        refine List.pairwise_cons.2 ⟨fun p hp => ?_, h⟩
        rcases List.mem_cons.1 hp with rfl | hp
        · exact hlt
        · exact Nat.lt_trans hlt (hk p hp)
    · by_cases heq : a = k
      · subst heq
        by_cases hb : b = d
        · simpa [cellsWrite, hb] using hrest
        · simp only [cellsWrite, if_neg hlt, if_true, if_neg hb]
          exact List.pairwise_cons.2 ⟨hk, hrest⟩
      · simp only [cellsWrite, if_neg hlt, if_neg heq]
        refine List.pairwise_cons.2 ⟨fun p hp => ?_, ih hrest⟩
        rcases mem_cellsWrite hp with ⟨rfl, -⟩ | hp
        · show k < a
          omega
        · exact hk p hp

/-- A write inside memory keeps the canonical form. -/
theorem Memory.wf_write (m : Memory) (a : Nat) (b : Byte) (h : m.wf) (ha : a < Config.memSize) : (m.write a b).wf := by
  refine ⟨pairwise_cellsWrite _ a b _ h.1, fun p hp => ?_⟩
  rcases mem_cellsWrite hp with ⟨rfl, hb⟩ | hp
  · exact ⟨ha, hb⟩
  · exact h.2 p hp

/-- A run of writes inside memory keeps the canonical form. -/
theorem Memory.wf_writeBytes (m : Memory) (a : Nat) (bytes : List Byte) (h : m.wf)
    (ha : a + bytes.length ≤ Config.memSize) : (m.writeBytes a bytes).wf := by
  induction bytes generalizing m a with
  | nil => exact h
  | cons b rest ih =>
    simp only [List.length_cons] at ha
    exact ih (m.write a b) (a + 1) (m.wf_write a b h (by omega)) (by omega)

/-- The memory of a reset machine has the canonical form. -/
theorem Memory.wf_fresh (font : Font) : Memory.wf ⟨font, []⟩ := ⟨List.Pairwise.nil, by simp⟩

theorem Memory.wf_reset : State.reset.M.wf := Memory.wf_fresh defaultFont

/-- A run of writes leaves every byte below it alone. -/
theorem Memory.read_writeBytes_below (m : Memory) (a k : Nat) (bytes : List Byte) (h : k < a) :
    (m.writeBytes a bytes).read k = m.read k := by
  induction bytes generalizing m a with
  | nil => rfl
  | cons b rest ih =>
    rw [Memory.writeBytes, ih _ _ (by omega), m.read_write_other a k b (by omega)]

/-- A run of writes leaves every byte above it alone. -/
theorem Memory.read_writeBytes_above (m : Memory) (a k : Nat) (bytes : List Byte) (h : a + bytes.length ≤ k) :
    (m.writeBytes a bytes).read k = m.read k := by
  induction bytes generalizing m a with
  | nil => rfl
  | cons b rest ih =>
    simp only [List.length_cons] at h
    rw [Memory.writeBytes, ih _ _ (by omega), m.read_write_other a k b (by omega)]

/-- The bytes a run of writes stored. -/
theorem Memory.read_writeBytes_inside (m : Memory) (a k : Nat) (bytes : List Byte) (h : m.wf)
    (hk : k < bytes.length) (ha : a + bytes.length ≤ Config.memSize) :
    (m.writeBytes a bytes).read (a + k) = bytes[k] := by
  induction bytes generalizing m a k with
  | nil => simp at hk
  | cons b rest ih =>
    simp only [List.length_cons] at ha hk
    cases k with
    | zero => rw [Memory.writeBytes, Memory.read_writeBytes_below _ _ _ _ (by omega)]; exact m.read_write_same a b h
    | succ k =>
      have := ih (m.write a b) (a + 1) k (m.wf_write a b h (by omega)) (by omega) (by omega)
      rw [Memory.writeBytes, show a + (k + 1) = a + 1 + k by omega, this]
      rfl

@[simp] theorem Memory.length_readBytes (m : Memory) (a n : Nat) : (m.readBytes a n).length = n := by
  induction n generalizing a with
  | zero => rfl
  | succ n ih => simp [Memory.readBytes, ih]

/-- The bytes a run of reads gives. -/
theorem Memory.getElem_readBytes (m : Memory) (a n k : Nat) (h : k < (m.readBytes a n).length) :
    (m.readBytes a n)[k] = m.read (a + k) := by
  induction n generalizing a k with
  | zero => simp [Memory.readBytes] at h
  | succ n ih =>
    cases k with
    | zero => rfl
    | succ k =>
      simp only [Memory.readBytes, List.getElem_cons_succ]
      rw [ih]
      congr 1
      omega

end Sys2Proof.Machine
end

