-- ==== Sys2Proof/Laws/State.lean ====
section
/-! SUPPORT. One lemma for each field of State under each update, so that no later proof unfolds a record update. -/

namespace Sys2Proof.Machine

variable (s : State)

/-! `State.setM` -/

@[simp] theorem State.V_setM (m : Memory) : (s.setM m).V = s.V := rfl
@[simp] theorem State.I_setM (m : Memory) : (s.setM m).I = s.I := rfl
@[simp] theorem State.pc_setM (m : Memory) : (s.setM m).pc = s.pc := rfl
@[simp] theorem State.sp_setM (m : Memory) : (s.setM m).sp = s.sp := rfl
@[simp] theorem State.S_setM (m : Memory) : (s.setM m).S = s.S := rfl
@[simp] theorem State.DT_setM (m : Memory) : (s.setM m).DT = s.DT := rfl
@[simp] theorem State.ST_setM (m : Memory) : (s.setM m).ST = s.ST := rfl
@[simp] theorem State.KEY_setM (m : Memory) : (s.setM m).KEY = s.KEY := rfl
@[simp] theorem State.PENDING_setM (m : Memory) : (s.setM m).PENDING = s.PENDING := rfl
@[simp] theorem State.FB_setM (m : Memory) : (s.setM m).FB = s.FB := rfl
@[simp] theorem State.M_setM (m : Memory) : (s.setM m).M = m := rfl
@[simp] theorem State.ROM_END_setM (m : Memory) : (s.setM m).ROM_END = s.ROM_END := rfl
@[simp] theorem State.FAULT_setM (m : Memory) : (s.setM m).FAULT = s.FAULT := rfl
@[simp] theorem State.SHIFT_QUIRK_setM (m : Memory) : (s.setM m).SHIFT_QUIRK = s.SHIFT_QUIRK := rfl
@[simp] theorem State.rndSupply_setM (m : Memory) : (s.setM m).rndSupply = s.rndSupply := rfl
@[simp] theorem State.rndCount_setM (m : Memory) : (s.setM m).rndCount = s.rndCount := rfl

/-! `State.storeBytes` -/

@[simp] theorem State.V_storeBytes (a : Nat) (bytes : List Byte) : (s.storeBytes a bytes).V = s.V := rfl
@[simp] theorem State.I_storeBytes (a : Nat) (bytes : List Byte) : (s.storeBytes a bytes).I = s.I := rfl
@[simp] theorem State.pc_storeBytes (a : Nat) (bytes : List Byte) : (s.storeBytes a bytes).pc = s.pc := rfl
@[simp] theorem State.sp_storeBytes (a : Nat) (bytes : List Byte) : (s.storeBytes a bytes).sp = s.sp := rfl
@[simp] theorem State.S_storeBytes (a : Nat) (bytes : List Byte) : (s.storeBytes a bytes).S = s.S := rfl
@[simp] theorem State.DT_storeBytes (a : Nat) (bytes : List Byte) : (s.storeBytes a bytes).DT = s.DT := rfl
@[simp] theorem State.ST_storeBytes (a : Nat) (bytes : List Byte) : (s.storeBytes a bytes).ST = s.ST := rfl
@[simp] theorem State.KEY_storeBytes (a : Nat) (bytes : List Byte) : (s.storeBytes a bytes).KEY = s.KEY := rfl
@[simp] theorem State.PENDING_storeBytes (a : Nat) (bytes : List Byte) : (s.storeBytes a bytes).PENDING = s.PENDING := rfl
@[simp] theorem State.FB_storeBytes (a : Nat) (bytes : List Byte) : (s.storeBytes a bytes).FB = s.FB := rfl
@[simp] theorem State.M_storeBytes (a : Nat) (bytes : List Byte) : (s.storeBytes a bytes).M = s.M.writeBytes a bytes := rfl
@[simp] theorem State.ROM_END_storeBytes (a : Nat) (bytes : List Byte) : (s.storeBytes a bytes).ROM_END = s.ROM_END := rfl
@[simp] theorem State.FAULT_storeBytes (a : Nat) (bytes : List Byte) : (s.storeBytes a bytes).FAULT = s.FAULT := rfl
@[simp] theorem State.SHIFT_QUIRK_storeBytes (a : Nat) (bytes : List Byte) : (s.storeBytes a bytes).SHIFT_QUIRK = s.SHIFT_QUIRK := rfl
@[simp] theorem State.rndSupply_storeBytes (a : Nat) (bytes : List Byte) : (s.storeBytes a bytes).rndSupply = s.rndSupply := rfl
@[simp] theorem State.rndCount_storeBytes (a : Nat) (bytes : List Byte) : (s.storeBytes a bytes).rndCount = s.rndCount := rfl

/-! `State.setV` -/

@[simp] theorem State.V_setV (x : Reg) (b : Byte) : (s.setV x b).V = s.V.set x b := rfl
@[simp] theorem State.I_setV (x : Reg) (b : Byte) : (s.setV x b).I = s.I := rfl
@[simp] theorem State.pc_setV (x : Reg) (b : Byte) : (s.setV x b).pc = s.pc := rfl
@[simp] theorem State.sp_setV (x : Reg) (b : Byte) : (s.setV x b).sp = s.sp := rfl
@[simp] theorem State.S_setV (x : Reg) (b : Byte) : (s.setV x b).S = s.S := rfl
@[simp] theorem State.DT_setV (x : Reg) (b : Byte) : (s.setV x b).DT = s.DT := rfl
@[simp] theorem State.ST_setV (x : Reg) (b : Byte) : (s.setV x b).ST = s.ST := rfl
@[simp] theorem State.KEY_setV (x : Reg) (b : Byte) : (s.setV x b).KEY = s.KEY := rfl
@[simp] theorem State.PENDING_setV (x : Reg) (b : Byte) : (s.setV x b).PENDING = s.PENDING := rfl
@[simp] theorem State.FB_setV (x : Reg) (b : Byte) : (s.setV x b).FB = s.FB := rfl
@[simp] theorem State.M_setV (x : Reg) (b : Byte) : (s.setV x b).M = s.M := rfl
@[simp] theorem State.ROM_END_setV (x : Reg) (b : Byte) : (s.setV x b).ROM_END = s.ROM_END := rfl
@[simp] theorem State.FAULT_setV (x : Reg) (b : Byte) : (s.setV x b).FAULT = s.FAULT := rfl
@[simp] theorem State.SHIFT_QUIRK_setV (x : Reg) (b : Byte) : (s.setV x b).SHIFT_QUIRK = s.SHIFT_QUIRK := rfl
@[simp] theorem State.rndSupply_setV (x : Reg) (b : Byte) : (s.setV x b).rndSupply = s.rndSupply := rfl
@[simp] theorem State.rndCount_setV (x : Reg) (b : Byte) : (s.setV x b).rndCount = s.rndCount := rfl

/-! `State.setFlagThenV` -/

@[simp] theorem State.V_setFlagThenV (x : Reg) (f b : Byte) : (s.setFlagThenV x f b).V = (s.V.set vF f).set x b := rfl
@[simp] theorem State.I_setFlagThenV (x : Reg) (f b : Byte) : (s.setFlagThenV x f b).I = s.I := rfl
@[simp] theorem State.pc_setFlagThenV (x : Reg) (f b : Byte) : (s.setFlagThenV x f b).pc = s.pc := rfl
@[simp] theorem State.sp_setFlagThenV (x : Reg) (f b : Byte) : (s.setFlagThenV x f b).sp = s.sp := rfl
@[simp] theorem State.S_setFlagThenV (x : Reg) (f b : Byte) : (s.setFlagThenV x f b).S = s.S := rfl
@[simp] theorem State.DT_setFlagThenV (x : Reg) (f b : Byte) : (s.setFlagThenV x f b).DT = s.DT := rfl
@[simp] theorem State.ST_setFlagThenV (x : Reg) (f b : Byte) : (s.setFlagThenV x f b).ST = s.ST := rfl
@[simp] theorem State.KEY_setFlagThenV (x : Reg) (f b : Byte) : (s.setFlagThenV x f b).KEY = s.KEY := rfl
@[simp] theorem State.PENDING_setFlagThenV (x : Reg) (f b : Byte) : (s.setFlagThenV x f b).PENDING = s.PENDING := rfl
@[simp] theorem State.FB_setFlagThenV (x : Reg) (f b : Byte) : (s.setFlagThenV x f b).FB = s.FB := rfl
@[simp] theorem State.M_setFlagThenV (x : Reg) (f b : Byte) : (s.setFlagThenV x f b).M = s.M := rfl
@[simp] theorem State.ROM_END_setFlagThenV (x : Reg) (f b : Byte) : (s.setFlagThenV x f b).ROM_END = s.ROM_END := rfl
@[simp] theorem State.FAULT_setFlagThenV (x : Reg) (f b : Byte) : (s.setFlagThenV x f b).FAULT = s.FAULT := rfl
@[simp] theorem State.SHIFT_QUIRK_setFlagThenV (x : Reg) (f b : Byte) : (s.setFlagThenV x f b).SHIFT_QUIRK = s.SHIFT_QUIRK := rfl
@[simp] theorem State.rndSupply_setFlagThenV (x : Reg) (f b : Byte) : (s.setFlagThenV x f b).rndSupply = s.rndSupply := rfl
@[simp] theorem State.rndCount_setFlagThenV (x : Reg) (f b : Byte) : (s.setFlagThenV x f b).rndCount = s.rndCount := rfl

/-! `State.loadV` -/

@[simp] theorem State.V_loadV (x : Reg) (f : Nat → Byte) : (s.loadV x f).V = Vector.ofFn fun k => if k ≤ x then f k else s.V[k] := rfl
@[simp] theorem State.I_loadV (x : Reg) (f : Nat → Byte) : (s.loadV x f).I = s.I := rfl
@[simp] theorem State.pc_loadV (x : Reg) (f : Nat → Byte) : (s.loadV x f).pc = s.pc := rfl
@[simp] theorem State.sp_loadV (x : Reg) (f : Nat → Byte) : (s.loadV x f).sp = s.sp := rfl
@[simp] theorem State.S_loadV (x : Reg) (f : Nat → Byte) : (s.loadV x f).S = s.S := rfl
@[simp] theorem State.DT_loadV (x : Reg) (f : Nat → Byte) : (s.loadV x f).DT = s.DT := rfl
@[simp] theorem State.ST_loadV (x : Reg) (f : Nat → Byte) : (s.loadV x f).ST = s.ST := rfl
@[simp] theorem State.KEY_loadV (x : Reg) (f : Nat → Byte) : (s.loadV x f).KEY = s.KEY := rfl
@[simp] theorem State.PENDING_loadV (x : Reg) (f : Nat → Byte) : (s.loadV x f).PENDING = s.PENDING := rfl
@[simp] theorem State.FB_loadV (x : Reg) (f : Nat → Byte) : (s.loadV x f).FB = s.FB := rfl
@[simp] theorem State.M_loadV (x : Reg) (f : Nat → Byte) : (s.loadV x f).M = s.M := rfl
@[simp] theorem State.ROM_END_loadV (x : Reg) (f : Nat → Byte) : (s.loadV x f).ROM_END = s.ROM_END := rfl
@[simp] theorem State.FAULT_loadV (x : Reg) (f : Nat → Byte) : (s.loadV x f).FAULT = s.FAULT := rfl
@[simp] theorem State.SHIFT_QUIRK_loadV (x : Reg) (f : Nat → Byte) : (s.loadV x f).SHIFT_QUIRK = s.SHIFT_QUIRK := rfl
@[simp] theorem State.rndSupply_loadV (x : Reg) (f : Nat → Byte) : (s.loadV x f).rndSupply = s.rndSupply := rfl
@[simp] theorem State.rndCount_loadV (x : Reg) (f : Nat → Byte) : (s.loadV x f).rndCount = s.rndCount := rfl

/-! `State.setI` -/

@[simp] theorem State.V_setI (v : Word) : (s.setI v).V = s.V := rfl
@[simp] theorem State.I_setI (v : Word) : (s.setI v).I = v := rfl
@[simp] theorem State.pc_setI (v : Word) : (s.setI v).pc = s.pc := rfl
@[simp] theorem State.sp_setI (v : Word) : (s.setI v).sp = s.sp := rfl
@[simp] theorem State.S_setI (v : Word) : (s.setI v).S = s.S := rfl
@[simp] theorem State.DT_setI (v : Word) : (s.setI v).DT = s.DT := rfl
@[simp] theorem State.ST_setI (v : Word) : (s.setI v).ST = s.ST := rfl
@[simp] theorem State.KEY_setI (v : Word) : (s.setI v).KEY = s.KEY := rfl
@[simp] theorem State.PENDING_setI (v : Word) : (s.setI v).PENDING = s.PENDING := rfl
@[simp] theorem State.FB_setI (v : Word) : (s.setI v).FB = s.FB := rfl
@[simp] theorem State.M_setI (v : Word) : (s.setI v).M = s.M := rfl
@[simp] theorem State.ROM_END_setI (v : Word) : (s.setI v).ROM_END = s.ROM_END := rfl
@[simp] theorem State.FAULT_setI (v : Word) : (s.setI v).FAULT = s.FAULT := rfl
@[simp] theorem State.SHIFT_QUIRK_setI (v : Word) : (s.setI v).SHIFT_QUIRK = s.SHIFT_QUIRK := rfl
@[simp] theorem State.rndSupply_setI (v : Word) : (s.setI v).rndSupply = s.rndSupply := rfl
@[simp] theorem State.rndCount_setI (v : Word) : (s.setI v).rndCount = s.rndCount := rfl

/-! `State.setPc` -/

@[simp] theorem State.V_setPc (v : Word) : (s.setPc v).V = s.V := rfl
@[simp] theorem State.I_setPc (v : Word) : (s.setPc v).I = s.I := rfl
@[simp] theorem State.pc_setPc (v : Word) : (s.setPc v).pc = v := rfl
@[simp] theorem State.sp_setPc (v : Word) : (s.setPc v).sp = s.sp := rfl
@[simp] theorem State.S_setPc (v : Word) : (s.setPc v).S = s.S := rfl
@[simp] theorem State.DT_setPc (v : Word) : (s.setPc v).DT = s.DT := rfl
@[simp] theorem State.ST_setPc (v : Word) : (s.setPc v).ST = s.ST := rfl
@[simp] theorem State.KEY_setPc (v : Word) : (s.setPc v).KEY = s.KEY := rfl
@[simp] theorem State.PENDING_setPc (v : Word) : (s.setPc v).PENDING = s.PENDING := rfl
@[simp] theorem State.FB_setPc (v : Word) : (s.setPc v).FB = s.FB := rfl
@[simp] theorem State.M_setPc (v : Word) : (s.setPc v).M = s.M := rfl
@[simp] theorem State.ROM_END_setPc (v : Word) : (s.setPc v).ROM_END = s.ROM_END := rfl
@[simp] theorem State.FAULT_setPc (v : Word) : (s.setPc v).FAULT = s.FAULT := rfl
@[simp] theorem State.SHIFT_QUIRK_setPc (v : Word) : (s.setPc v).SHIFT_QUIRK = s.SHIFT_QUIRK := rfl
@[simp] theorem State.rndSupply_setPc (v : Word) : (s.setPc v).rndSupply = s.rndSupply := rfl
@[simp] theorem State.rndCount_setPc (v : Word) : (s.setPc v).rndCount = s.rndCount := rfl

/-! `State.advance` -/

@[simp] theorem State.V_advance : (s.advance).V = s.V := rfl
@[simp] theorem State.I_advance : (s.advance).I = s.I := rfl
@[simp] theorem State.pc_advance : (s.advance).pc = s.pc + 2 := rfl
@[simp] theorem State.sp_advance : (s.advance).sp = s.sp := rfl
@[simp] theorem State.S_advance : (s.advance).S = s.S := rfl
@[simp] theorem State.DT_advance : (s.advance).DT = s.DT := rfl
@[simp] theorem State.ST_advance : (s.advance).ST = s.ST := rfl
@[simp] theorem State.KEY_advance : (s.advance).KEY = s.KEY := rfl
@[simp] theorem State.PENDING_advance : (s.advance).PENDING = s.PENDING := rfl
@[simp] theorem State.FB_advance : (s.advance).FB = s.FB := rfl
@[simp] theorem State.M_advance : (s.advance).M = s.M := rfl
@[simp] theorem State.ROM_END_advance : (s.advance).ROM_END = s.ROM_END := rfl
@[simp] theorem State.FAULT_advance : (s.advance).FAULT = s.FAULT := rfl
@[simp] theorem State.SHIFT_QUIRK_advance : (s.advance).SHIFT_QUIRK = s.SHIFT_QUIRK := rfl
@[simp] theorem State.rndSupply_advance : (s.advance).rndSupply = s.rndSupply := rfl
@[simp] theorem State.rndCount_advance : (s.advance).rndCount = s.rndCount := rfl

/-! `State.setDT` -/

@[simp] theorem State.V_setDT (b : Byte) : (s.setDT b).V = s.V := rfl
@[simp] theorem State.I_setDT (b : Byte) : (s.setDT b).I = s.I := rfl
@[simp] theorem State.pc_setDT (b : Byte) : (s.setDT b).pc = s.pc := rfl
@[simp] theorem State.sp_setDT (b : Byte) : (s.setDT b).sp = s.sp := rfl
@[simp] theorem State.S_setDT (b : Byte) : (s.setDT b).S = s.S := rfl
@[simp] theorem State.DT_setDT (b : Byte) : (s.setDT b).DT = b := rfl
@[simp] theorem State.ST_setDT (b : Byte) : (s.setDT b).ST = s.ST := rfl
@[simp] theorem State.KEY_setDT (b : Byte) : (s.setDT b).KEY = s.KEY := rfl
@[simp] theorem State.PENDING_setDT (b : Byte) : (s.setDT b).PENDING = s.PENDING := rfl
@[simp] theorem State.FB_setDT (b : Byte) : (s.setDT b).FB = s.FB := rfl
@[simp] theorem State.M_setDT (b : Byte) : (s.setDT b).M = s.M := rfl
@[simp] theorem State.ROM_END_setDT (b : Byte) : (s.setDT b).ROM_END = s.ROM_END := rfl
@[simp] theorem State.FAULT_setDT (b : Byte) : (s.setDT b).FAULT = s.FAULT := rfl
@[simp] theorem State.SHIFT_QUIRK_setDT (b : Byte) : (s.setDT b).SHIFT_QUIRK = s.SHIFT_QUIRK := rfl
@[simp] theorem State.rndSupply_setDT (b : Byte) : (s.setDT b).rndSupply = s.rndSupply := rfl
@[simp] theorem State.rndCount_setDT (b : Byte) : (s.setDT b).rndCount = s.rndCount := rfl

/-! `State.setST` -/

@[simp] theorem State.V_setST (b : Byte) : (s.setST b).V = s.V := rfl
@[simp] theorem State.I_setST (b : Byte) : (s.setST b).I = s.I := rfl
@[simp] theorem State.pc_setST (b : Byte) : (s.setST b).pc = s.pc := rfl
@[simp] theorem State.sp_setST (b : Byte) : (s.setST b).sp = s.sp := rfl
@[simp] theorem State.S_setST (b : Byte) : (s.setST b).S = s.S := rfl
@[simp] theorem State.DT_setST (b : Byte) : (s.setST b).DT = s.DT := rfl
@[simp] theorem State.ST_setST (b : Byte) : (s.setST b).ST = b := rfl
@[simp] theorem State.KEY_setST (b : Byte) : (s.setST b).KEY = s.KEY := rfl
@[simp] theorem State.PENDING_setST (b : Byte) : (s.setST b).PENDING = s.PENDING := rfl
@[simp] theorem State.FB_setST (b : Byte) : (s.setST b).FB = s.FB := rfl
@[simp] theorem State.M_setST (b : Byte) : (s.setST b).M = s.M := rfl
@[simp] theorem State.ROM_END_setST (b : Byte) : (s.setST b).ROM_END = s.ROM_END := rfl
@[simp] theorem State.FAULT_setST (b : Byte) : (s.setST b).FAULT = s.FAULT := rfl
@[simp] theorem State.SHIFT_QUIRK_setST (b : Byte) : (s.setST b).SHIFT_QUIRK = s.SHIFT_QUIRK := rfl
@[simp] theorem State.rndSupply_setST (b : Byte) : (s.setST b).rndSupply = s.rndSupply := rfl
@[simp] theorem State.rndCount_setST (b : Byte) : (s.setST b).rndCount = s.rndCount := rfl

/-! `State.setPENDING` -/

@[simp] theorem State.V_setPENDING (p : Option Key) : (s.setPENDING p).V = s.V := rfl
@[simp] theorem State.I_setPENDING (p : Option Key) : (s.setPENDING p).I = s.I := rfl
@[simp] theorem State.pc_setPENDING (p : Option Key) : (s.setPENDING p).pc = s.pc := rfl
@[simp] theorem State.sp_setPENDING (p : Option Key) : (s.setPENDING p).sp = s.sp := rfl
@[simp] theorem State.S_setPENDING (p : Option Key) : (s.setPENDING p).S = s.S := rfl
@[simp] theorem State.DT_setPENDING (p : Option Key) : (s.setPENDING p).DT = s.DT := rfl
@[simp] theorem State.ST_setPENDING (p : Option Key) : (s.setPENDING p).ST = s.ST := rfl
@[simp] theorem State.KEY_setPENDING (p : Option Key) : (s.setPENDING p).KEY = s.KEY := rfl
@[simp] theorem State.PENDING_setPENDING (p : Option Key) : (s.setPENDING p).PENDING = p := rfl
@[simp] theorem State.FB_setPENDING (p : Option Key) : (s.setPENDING p).FB = s.FB := rfl
@[simp] theorem State.M_setPENDING (p : Option Key) : (s.setPENDING p).M = s.M := rfl
@[simp] theorem State.ROM_END_setPENDING (p : Option Key) : (s.setPENDING p).ROM_END = s.ROM_END := rfl
@[simp] theorem State.FAULT_setPENDING (p : Option Key) : (s.setPENDING p).FAULT = s.FAULT := rfl
@[simp] theorem State.SHIFT_QUIRK_setPENDING (p : Option Key) : (s.setPENDING p).SHIFT_QUIRK = s.SHIFT_QUIRK := rfl
@[simp] theorem State.rndSupply_setPENDING (p : Option Key) : (s.setPENDING p).rndSupply = s.rndSupply := rfl
@[simp] theorem State.rndCount_setPENDING (p : Option Key) : (s.setPENDING p).rndCount = s.rndCount := rfl

/-! `State.setKEY` -/

@[simp] theorem State.V_setKEY (k : Key) (b : Bool) : (s.setKEY k b).V = s.V := rfl
@[simp] theorem State.I_setKEY (k : Key) (b : Bool) : (s.setKEY k b).I = s.I := rfl
@[simp] theorem State.pc_setKEY (k : Key) (b : Bool) : (s.setKEY k b).pc = s.pc := rfl
@[simp] theorem State.sp_setKEY (k : Key) (b : Bool) : (s.setKEY k b).sp = s.sp := rfl
@[simp] theorem State.S_setKEY (k : Key) (b : Bool) : (s.setKEY k b).S = s.S := rfl
@[simp] theorem State.DT_setKEY (k : Key) (b : Bool) : (s.setKEY k b).DT = s.DT := rfl
@[simp] theorem State.ST_setKEY (k : Key) (b : Bool) : (s.setKEY k b).ST = s.ST := rfl
@[simp] theorem State.KEY_setKEY (k : Key) (b : Bool) : (s.setKEY k b).KEY = s.KEY.set k b := rfl
@[simp] theorem State.PENDING_setKEY (k : Key) (b : Bool) : (s.setKEY k b).PENDING = s.PENDING := rfl
@[simp] theorem State.FB_setKEY (k : Key) (b : Bool) : (s.setKEY k b).FB = s.FB := rfl
@[simp] theorem State.M_setKEY (k : Key) (b : Bool) : (s.setKEY k b).M = s.M := rfl
@[simp] theorem State.ROM_END_setKEY (k : Key) (b : Bool) : (s.setKEY k b).ROM_END = s.ROM_END := rfl
@[simp] theorem State.FAULT_setKEY (k : Key) (b : Bool) : (s.setKEY k b).FAULT = s.FAULT := rfl
@[simp] theorem State.SHIFT_QUIRK_setKEY (k : Key) (b : Bool) : (s.setKEY k b).SHIFT_QUIRK = s.SHIFT_QUIRK := rfl
@[simp] theorem State.rndSupply_setKEY (k : Key) (b : Bool) : (s.setKEY k b).rndSupply = s.rndSupply := rfl
@[simp] theorem State.rndCount_setKEY (k : Key) (b : Bool) : (s.setKEY k b).rndCount = s.rndCount := rfl

/-! `State.push` -/

@[simp] theorem State.V_push (v : Word) : (s.push v).V = s.V := rfl
@[simp] theorem State.I_push (v : Word) : (s.push v).I = s.I := rfl
@[simp] theorem State.pc_push (v : Word) : (s.push v).pc = s.pc := rfl
@[simp] theorem State.sp_push (v : Word) : (s.push v).sp = s.sp + 1 := rfl
@[simp] theorem State.S_push (v : Word) : (s.push v).S = s.S.set (s.sp + 1 : Fin 16) v := rfl
@[simp] theorem State.DT_push (v : Word) : (s.push v).DT = s.DT := rfl
@[simp] theorem State.ST_push (v : Word) : (s.push v).ST = s.ST := rfl
@[simp] theorem State.KEY_push (v : Word) : (s.push v).KEY = s.KEY := rfl
@[simp] theorem State.PENDING_push (v : Word) : (s.push v).PENDING = s.PENDING := rfl
@[simp] theorem State.FB_push (v : Word) : (s.push v).FB = s.FB := rfl
@[simp] theorem State.M_push (v : Word) : (s.push v).M = s.M := rfl
@[simp] theorem State.ROM_END_push (v : Word) : (s.push v).ROM_END = s.ROM_END := rfl
@[simp] theorem State.FAULT_push (v : Word) : (s.push v).FAULT = s.FAULT := rfl
@[simp] theorem State.SHIFT_QUIRK_push (v : Word) : (s.push v).SHIFT_QUIRK = s.SHIFT_QUIRK := rfl
@[simp] theorem State.rndSupply_push (v : Word) : (s.push v).rndSupply = s.rndSupply := rfl
@[simp] theorem State.rndCount_push (v : Word) : (s.push v).rndCount = s.rndCount := rfl

/-! `State.pop` -/

@[simp] theorem State.V_pop : (s.pop).V = s.V := rfl
@[simp] theorem State.I_pop : (s.pop).I = s.I := rfl
@[simp] theorem State.pc_pop : (s.pop).pc = s.pc := rfl
@[simp] theorem State.sp_pop : (s.pop).sp = s.sp - 1 := rfl
@[simp] theorem State.S_pop : (s.pop).S = s.S := rfl
@[simp] theorem State.DT_pop : (s.pop).DT = s.DT := rfl
@[simp] theorem State.ST_pop : (s.pop).ST = s.ST := rfl
@[simp] theorem State.KEY_pop : (s.pop).KEY = s.KEY := rfl
@[simp] theorem State.PENDING_pop : (s.pop).PENDING = s.PENDING := rfl
@[simp] theorem State.FB_pop : (s.pop).FB = s.FB := rfl
@[simp] theorem State.M_pop : (s.pop).M = s.M := rfl
@[simp] theorem State.ROM_END_pop : (s.pop).ROM_END = s.ROM_END := rfl
@[simp] theorem State.FAULT_pop : (s.pop).FAULT = s.FAULT := rfl
@[simp] theorem State.SHIFT_QUIRK_pop : (s.pop).SHIFT_QUIRK = s.SHIFT_QUIRK := rfl
@[simp] theorem State.rndSupply_pop : (s.pop).rndSupply = s.rndSupply := rfl
@[simp] theorem State.rndCount_pop : (s.pop).rndCount = s.rndCount := rfl

/-! `State.setFB` -/

@[simp] theorem State.V_setFB (f : Frame) : (s.setFB f).V = s.V := rfl
@[simp] theorem State.I_setFB (f : Frame) : (s.setFB f).I = s.I := rfl
@[simp] theorem State.pc_setFB (f : Frame) : (s.setFB f).pc = s.pc := rfl
@[simp] theorem State.sp_setFB (f : Frame) : (s.setFB f).sp = s.sp := rfl
@[simp] theorem State.S_setFB (f : Frame) : (s.setFB f).S = s.S := rfl
@[simp] theorem State.DT_setFB (f : Frame) : (s.setFB f).DT = s.DT := rfl
@[simp] theorem State.ST_setFB (f : Frame) : (s.setFB f).ST = s.ST := rfl
@[simp] theorem State.KEY_setFB (f : Frame) : (s.setFB f).KEY = s.KEY := rfl
@[simp] theorem State.PENDING_setFB (f : Frame) : (s.setFB f).PENDING = s.PENDING := rfl
@[simp] theorem State.FB_setFB (f : Frame) : (s.setFB f).FB = f := rfl
@[simp] theorem State.M_setFB (f : Frame) : (s.setFB f).M = s.M := rfl
@[simp] theorem State.ROM_END_setFB (f : Frame) : (s.setFB f).ROM_END = s.ROM_END := rfl
@[simp] theorem State.FAULT_setFB (f : Frame) : (s.setFB f).FAULT = s.FAULT := rfl
@[simp] theorem State.SHIFT_QUIRK_setFB (f : Frame) : (s.setFB f).SHIFT_QUIRK = s.SHIFT_QUIRK := rfl
@[simp] theorem State.rndSupply_setFB (f : Frame) : (s.setFB f).rndSupply = s.rndSupply := rfl
@[simp] theorem State.rndCount_setFB (f : Frame) : (s.setFB f).rndCount = s.rndCount := rfl

/-! `State.raise` -/

@[simp] theorem State.V_raise (A w : Word) (kind : FaultKind) (d : Word) : (s.raise A w kind d).V = s.V := rfl
@[simp] theorem State.I_raise (A w : Word) (kind : FaultKind) (d : Word) : (s.raise A w kind d).I = s.I := rfl
@[simp] theorem State.pc_raise (A w : Word) (kind : FaultKind) (d : Word) : (s.raise A w kind d).pc = A := rfl
@[simp] theorem State.sp_raise (A w : Word) (kind : FaultKind) (d : Word) : (s.raise A w kind d).sp = s.sp := rfl
@[simp] theorem State.S_raise (A w : Word) (kind : FaultKind) (d : Word) : (s.raise A w kind d).S = s.S := rfl
@[simp] theorem State.DT_raise (A w : Word) (kind : FaultKind) (d : Word) : (s.raise A w kind d).DT = s.DT := rfl
@[simp] theorem State.ST_raise (A w : Word) (kind : FaultKind) (d : Word) : (s.raise A w kind d).ST = s.ST := rfl
@[simp] theorem State.KEY_raise (A w : Word) (kind : FaultKind) (d : Word) : (s.raise A w kind d).KEY = s.KEY := rfl
@[simp] theorem State.PENDING_raise (A w : Word) (kind : FaultKind) (d : Word) : (s.raise A w kind d).PENDING = s.PENDING := rfl
@[simp] theorem State.FB_raise (A w : Word) (kind : FaultKind) (d : Word) : (s.raise A w kind d).FB = s.FB := rfl
@[simp] theorem State.M_raise (A w : Word) (kind : FaultKind) (d : Word) : (s.raise A w kind d).M = s.M := rfl
@[simp] theorem State.ROM_END_raise (A w : Word) (kind : FaultKind) (d : Word) : (s.raise A w kind d).ROM_END = s.ROM_END := rfl
@[simp] theorem State.FAULT_raise (A w : Word) (kind : FaultKind) (d : Word) : (s.raise A w kind d).FAULT = some ⟨kind, A, w, d⟩ := rfl
@[simp] theorem State.SHIFT_QUIRK_raise (A w : Word) (kind : FaultKind) (d : Word) : (s.raise A w kind d).SHIFT_QUIRK = s.SHIFT_QUIRK := rfl
@[simp] theorem State.rndSupply_raise (A w : Word) (kind : FaultKind) (d : Word) : (s.raise A w kind d).rndSupply = s.rndSupply := rfl
@[simp] theorem State.rndCount_raise (A w : Word) (kind : FaultKind) (d : Word) : (s.raise A w kind d).rndCount = s.rndCount := rfl

/-! `State.raiseIn` -/

@[simp] theorem State.V_raiseIn (i : Instr) (kind : FaultKind) (d : Word) : (s.raiseIn i kind d).V = s.V := rfl
@[simp] theorem State.I_raiseIn (i : Instr) (kind : FaultKind) (d : Word) : (s.raiseIn i kind d).I = s.I := rfl
@[simp] theorem State.pc_raiseIn (i : Instr) (kind : FaultKind) (d : Word) : (s.raiseIn i kind d).pc = s.pc - 2 := rfl
@[simp] theorem State.sp_raiseIn (i : Instr) (kind : FaultKind) (d : Word) : (s.raiseIn i kind d).sp = s.sp := rfl
@[simp] theorem State.S_raiseIn (i : Instr) (kind : FaultKind) (d : Word) : (s.raiseIn i kind d).S = s.S := rfl
@[simp] theorem State.DT_raiseIn (i : Instr) (kind : FaultKind) (d : Word) : (s.raiseIn i kind d).DT = s.DT := rfl
@[simp] theorem State.ST_raiseIn (i : Instr) (kind : FaultKind) (d : Word) : (s.raiseIn i kind d).ST = s.ST := rfl
@[simp] theorem State.KEY_raiseIn (i : Instr) (kind : FaultKind) (d : Word) : (s.raiseIn i kind d).KEY = s.KEY := rfl
@[simp] theorem State.PENDING_raiseIn (i : Instr) (kind : FaultKind) (d : Word) : (s.raiseIn i kind d).PENDING = s.PENDING := rfl
@[simp] theorem State.FB_raiseIn (i : Instr) (kind : FaultKind) (d : Word) : (s.raiseIn i kind d).FB = s.FB := rfl
@[simp] theorem State.M_raiseIn (i : Instr) (kind : FaultKind) (d : Word) : (s.raiseIn i kind d).M = s.M := rfl
@[simp] theorem State.ROM_END_raiseIn (i : Instr) (kind : FaultKind) (d : Word) : (s.raiseIn i kind d).ROM_END = s.ROM_END := rfl
@[simp] theorem State.FAULT_raiseIn (i : Instr) (kind : FaultKind) (d : Word) : (s.raiseIn i kind d).FAULT = some ⟨kind, s.pc - 2, encode i, d⟩ := rfl
@[simp] theorem State.SHIFT_QUIRK_raiseIn (i : Instr) (kind : FaultKind) (d : Word) : (s.raiseIn i kind d).SHIFT_QUIRK = s.SHIFT_QUIRK := rfl
@[simp] theorem State.rndSupply_raiseIn (i : Instr) (kind : FaultKind) (d : Word) : (s.raiseIn i kind d).rndSupply = s.rndSupply := rfl
@[simp] theorem State.rndCount_raiseIn (i : Instr) (kind : FaultKind) (d : Word) : (s.raiseIn i kind d).rndCount = s.rndCount := rfl

/-! `State.supplyRandom` -/

@[simp] theorem State.V_supplyRandom (b : Byte) : (s.supplyRandom b).V = s.V := rfl
@[simp] theorem State.I_supplyRandom (b : Byte) : (s.supplyRandom b).I = s.I := rfl
@[simp] theorem State.pc_supplyRandom (b : Byte) : (s.supplyRandom b).pc = s.pc := rfl
@[simp] theorem State.sp_supplyRandom (b : Byte) : (s.supplyRandom b).sp = s.sp := rfl
@[simp] theorem State.S_supplyRandom (b : Byte) : (s.supplyRandom b).S = s.S := rfl
@[simp] theorem State.DT_supplyRandom (b : Byte) : (s.supplyRandom b).DT = s.DT := rfl
@[simp] theorem State.ST_supplyRandom (b : Byte) : (s.supplyRandom b).ST = s.ST := rfl
@[simp] theorem State.KEY_supplyRandom (b : Byte) : (s.supplyRandom b).KEY = s.KEY := rfl
@[simp] theorem State.PENDING_supplyRandom (b : Byte) : (s.supplyRandom b).PENDING = s.PENDING := rfl
@[simp] theorem State.FB_supplyRandom (b : Byte) : (s.supplyRandom b).FB = s.FB := rfl
@[simp] theorem State.M_supplyRandom (b : Byte) : (s.supplyRandom b).M = s.M := rfl
@[simp] theorem State.ROM_END_supplyRandom (b : Byte) : (s.supplyRandom b).ROM_END = s.ROM_END := rfl
@[simp] theorem State.FAULT_supplyRandom (b : Byte) : (s.supplyRandom b).FAULT = s.FAULT := rfl
@[simp] theorem State.SHIFT_QUIRK_supplyRandom (b : Byte) : (s.supplyRandom b).SHIFT_QUIRK = s.SHIFT_QUIRK := rfl
@[simp] theorem State.rndSupply_supplyRandom (b : Byte) : (s.supplyRandom b).rndSupply = s.rndSupply ++ [b] := rfl
@[simp] theorem State.rndCount_supplyRandom (b : Byte) : (s.supplyRandom b).rndCount = s.rndCount := rfl

/-! `State.skipIf` and `State.consumeDraw`: these choose between updates. -/

@[simp] theorem State.pc_skipIf (c : Bool) : (s.skipIf c).pc = if c then s.pc + 2 else s.pc := by
  cases c <;> rfl
@[simp] theorem State.V_skipIf (c : Bool) : (s.skipIf c).V = s.V := by cases c <;> rfl
@[simp] theorem State.I_skipIf (c : Bool) : (s.skipIf c).I = s.I := by cases c <;> rfl
@[simp] theorem State.sp_skipIf (c : Bool) : (s.skipIf c).sp = s.sp := by cases c <;> rfl
@[simp] theorem State.S_skipIf (c : Bool) : (s.skipIf c).S = s.S := by cases c <;> rfl
@[simp] theorem State.DT_skipIf (c : Bool) : (s.skipIf c).DT = s.DT := by cases c <;> rfl
@[simp] theorem State.ST_skipIf (c : Bool) : (s.skipIf c).ST = s.ST := by cases c <;> rfl
@[simp] theorem State.KEY_skipIf (c : Bool) : (s.skipIf c).KEY = s.KEY := by cases c <;> rfl
@[simp] theorem State.PENDING_skipIf (c : Bool) : (s.skipIf c).PENDING = s.PENDING := by cases c <;> rfl
@[simp] theorem State.FB_skipIf (c : Bool) : (s.skipIf c).FB = s.FB := by cases c <;> rfl
@[simp] theorem State.M_skipIf (c : Bool) : (s.skipIf c).M = s.M := by cases c <;> rfl
@[simp] theorem State.ROM_END_skipIf (c : Bool) : (s.skipIf c).ROM_END = s.ROM_END := by cases c <;> rfl
@[simp] theorem State.FAULT_skipIf (c : Bool) : (s.skipIf c).FAULT = s.FAULT := by cases c <;> rfl
@[simp] theorem State.SHIFT_QUIRK_skipIf (c : Bool) : (s.skipIf c).SHIFT_QUIRK = s.SHIFT_QUIRK := by cases c <;> rfl
@[simp] theorem State.rndSupply_skipIf (c : Bool) : (s.skipIf c).rndSupply = s.rndSupply := by cases c <;> rfl
@[simp] theorem State.rndCount_skipIf (c : Bool) : (s.skipIf c).rndCount = s.rndCount := by cases c <;> rfl
@[simp] theorem State.V_consumeDraw : s.consumeDraw.V = s.V := by
  unfold State.consumeDraw; split <;> rfl
@[simp] theorem State.I_consumeDraw : s.consumeDraw.I = s.I := by
  unfold State.consumeDraw; split <;> rfl
@[simp] theorem State.pc_consumeDraw : s.consumeDraw.pc = s.pc := by
  unfold State.consumeDraw; split <;> rfl
@[simp] theorem State.sp_consumeDraw : s.consumeDraw.sp = s.sp := by
  unfold State.consumeDraw; split <;> rfl
@[simp] theorem State.S_consumeDraw : s.consumeDraw.S = s.S := by
  unfold State.consumeDraw; split <;> rfl
@[simp] theorem State.DT_consumeDraw : s.consumeDraw.DT = s.DT := by
  unfold State.consumeDraw; split <;> rfl
@[simp] theorem State.ST_consumeDraw : s.consumeDraw.ST = s.ST := by
  unfold State.consumeDraw; split <;> rfl
@[simp] theorem State.KEY_consumeDraw : s.consumeDraw.KEY = s.KEY := by
  unfold State.consumeDraw; split <;> rfl
@[simp] theorem State.PENDING_consumeDraw : s.consumeDraw.PENDING = s.PENDING := by
  unfold State.consumeDraw; split <;> rfl
@[simp] theorem State.FB_consumeDraw : s.consumeDraw.FB = s.FB := by
  unfold State.consumeDraw; split <;> rfl
@[simp] theorem State.M_consumeDraw : s.consumeDraw.M = s.M := by
  unfold State.consumeDraw; split <;> rfl
@[simp] theorem State.ROM_END_consumeDraw : s.consumeDraw.ROM_END = s.ROM_END := by
  unfold State.consumeDraw; split <;> rfl
@[simp] theorem State.FAULT_consumeDraw : s.consumeDraw.FAULT = s.FAULT := by
  unfold State.consumeDraw; split <;> rfl
@[simp] theorem State.SHIFT_QUIRK_consumeDraw : s.consumeDraw.SHIFT_QUIRK = s.SHIFT_QUIRK := by
  unfold State.consumeDraw; split <;> rfl

@[simp] theorem State.rndSupply_consumeDraw : s.consumeDraw.rndSupply = s.rndSupply.tail := by
  unfold State.consumeDraw; split <;> simp_all

end Sys2Proof.Machine
end

