-- ==== Sys2Proof/Laws/Ops.lean ====
section
/-! SUPPORT. What each shared operation does: registers, operand forms, results and flags, the framebuffer. -/

namespace Sys2Proof.Machine

/-! ### Registers -/

/-- A register reads what was last written to it (R21). -/
theorem State.getV_setV (s : State) (x k : Reg) (b : Byte) : (s.setV x b).getV k = if k = x then b else s.getV k := by
  unfold State.getV State.setV
  by_cases h : k = x
  · subst h; simp
  · have : (x : Nat) ≠ k := fun e => h (Fin.ext e.symm)
    simp [h, this]

/-- VF then Vx: Vx holds the result whatever x is, VF the flag unless x = F (R138). -/
theorem State.getV_setFlagThenV (s : State) (x k : Reg) (f b : Byte) :
    (s.setFlagThenV x f b).getV k = if k = x then b else if k = vF then f else s.getV k := by
  unfold State.setFlagThenV
  rw [State.getV_setV, State.getV_setV]

/-- The registers after a load of V0 to Vx (R255). -/
theorem State.getV_loadV (s : State) (x k : Reg) (f : Nat → Byte) :
    (s.loadV x f).getV k = if k ≤ x then f k else s.getV k := by
  simp [State.getV, State.loadV]

@[simp] theorem State.length_dumpV (s : State) (x : Reg) : (s.dumpV x).length = x.val + 1 := by
  simp [State.dumpV]

/-- The registers a dump stores, in order (R254). -/
theorem State.getElem_dumpV (s : State) (x : Reg) (k : Nat) (h : k < (s.dumpV x).length) :
    (s.dumpV x)[k] = s.getV ⟨k, by simp at h; omega⟩ := by
  simp [State.dumpV, State.getV]

/-! ### The range check -/

theorem outOfRange_iff (a n : Nat) : outOfRange a n = true ↔ 1 ≤ n ∧ Config.memSize < a + n := by
  simp only [outOfRange, decide_eq_true_eq, Config.memSize]
  omega

theorem outOfRange_eq_false_iff (a n : Nat) : outOfRange a n = false ↔ n = 0 ∨ a + n ≤ Config.memSize := by
  rw [← Bool.not_eq_true, outOfRange_iff]
  omega

/-! ### Operand forms -/

theorem toNat_zext16 (nnn : Addr12) : (zext16 nnn).toNat = nnn.toNat := by
  simp [zext16]
  omega

theorem toNat_zext16Byte (b : Byte) : (zext16Byte b).toNat = b.toNat := by
  simp [zext16Byte]
  omega

theorem toNat_offsetTarget (nnn : Addr12) (v0 : Byte) : (offsetTarget nnn v0).toNat = nnn.toNat + v0.toNat := by
  simp [offsetTarget]
  omega

theorem toNat_glyphAddr (a : Byte) : (glyphAddr a).toNat = a.toNat % 16 * 5 := by
  simp [glyphAddr]
  omega

theorem keyOf_eq_none_iff (a : Byte) : keyOf a = none ↔ 0xF < a.toNat := by
  unfold keyOf
  split <;> simp <;> omega

theorem keyOf_eq_some_iff (a : Byte) (k : Key) : keyOf a = some k ↔ a.toNat = k.val := by
  unfold keyOf
  split
  · simp [Fin.ext_iff]
  · simp; omega

@[simp] theorem length_bcdDigits (a : Byte) : (bcdDigits a).length = 3 := rfl

/-! ### Results and flags -/

theorem toNat_narrow8 (n : Nat) : (narrow8 n).toNat = n % 256 := by simp [narrow8]

/-- The exact sum narrowed is the machine sum (R200). -/
theorem addResult_eq (a b : Byte) : addResult a b = a + b := by
  apply BitVec.eq_of_toNat_eq
  simp [addResult, narrow8]

/-- The exact difference narrowed is the machine difference (R200). -/
theorem subResult_eq (a b : Byte) : subResult a b = a - b := by
  apply BitVec.eq_of_toInt_eq
  rw [subResult, BitVec.toInt_sub, BitVec.toInt_ofInt, BitVec.toInt_eq_toNat_bmod, BitVec.toInt_eq_toNat_bmod]
  simp

/-- The flag is always 0 or 1 (R201). -/
theorem flagByte_eq_zero_or_one (c : Bool) : flagByte c = 0 ∨ flagByte c = 1 := by cases c <;> simp [flagByte]

theorem shrResult_eq (s : Byte) : shrResult s = s >>> 1 := by
  apply BitVec.eq_of_toNat_eq
  simp [shrResult, narrow8, BitVec.toNat_ushiftRight, Nat.shiftRight_succ]
  omega

theorem shlResult_eq (s : Byte) : shlResult s = s <<< 1 := by
  apply BitVec.eq_of_toNat_eq
  simp [shlResult, narrow8, BitVec.toNat_shiftLeft, Nat.shiftLeft_eq]

/-! ### The framebuffer -/

/-- A pixel reads what was last written to it (R43). -/
theorem Frame.pixel_setPixel (f : Frame) (x p : Fin 64) (y q : Fin 32) (b : Bool) :
    (f.setPixel x y b).pixel p q = if p = x ∧ q = y then b else f.pixel p q := by
  unfold Frame.setPixel Frame.pixel
  by_cases hq : q = y
  · subst hq
    by_cases hp : p = x
    · subst hp; simp
    · have : (x : Nat) ≠ p := fun e => hp (Fin.ext e.symm)
      simp [hp, this]
  · have : (y : Nat) ≠ q := fun e => hq (Fin.ext e.symm)
    simp [hq, this]

@[simp] theorem Frame.pixel_blank (x : Fin 64) (y : Fin 32) : Frame.blank.pixel x y = false := by
  simp [Frame.pixel, Frame.blank]

/-- Two framebuffers with the same pixels are the same. -/
theorem Frame.ext_pixel (f g : Frame) (h : ∀ x y, f.pixel x y = g.pixel x y) : f = g := by
  apply Vector.ext
  intro j hj
  apply Vector.ext
  intro i hi
  exact h ⟨i, hi⟩ ⟨j, hj⟩

/-! ### The random draw -/

/-- A byte the host supplied is the one the next draw gives (R368). -/
theorem State.drawnByte_supplyRandom (s : State) (b : Byte) (h : s.rndSupply = []) :
    (s.supplyRandom b).drawnByte = b := by
  simp [State.drawnByte, State.supplyRandom, h]

end Sys2Proof.Machine
end

