-- ==== Sys2Proof/Laws/Display.lean ====
section
/-! SUPPORT. What drawing does to each pixel and when it reports a collision (spec 44_display.md R291). -/

namespace Sys2Proof.Machine

/-- Some column c below `k` of the row has its bit set and lands on column p; the row lands on row q. -/
def RowLandsOn (x0 y : Nat) (row : Byte) (k : Nat) (p : Fin 64) (q : Fin 32) : Prop :=
  ∃ c, c < k ∧ row.getLsbD (7 - c) = true ∧ Fin.ofNat 64 (x0 + c) = p ∧ Fin.ofNat 32 y = q

/-- Some row r of the sprite lands on the pixel. -/
def SpriteLandsOn (x0 y0 : Nat) (rows : List Byte) (p : Fin 64) (q : Fin 32) : Prop :=
  ∃ (r : Nat) (h : r < rows.length), RowLandsOn x0 (y0 + r) rows[r] 8 p q

theorem drawPixel_pixel (x : Fin 64) (y : Fin 32) (d : Drawing) (p : Fin 64) (q : Fin 32) :
    (drawPixel x y d).1.pixel p q = true ↔ ¬(d.1.pixel p q = true ↔ x = p ∧ y = q) := by
  simp only [drawPixel, Frame.pixel_setPixel]
  by_cases h : p = x ∧ q = y
  · obtain ⟨rfl, rfl⟩ := h
    cases d.1.pixel p q <;> simp
  · have h' : ¬(x = p ∧ y = q) := fun e => h ⟨e.1.symm, e.2.symm⟩
    simp [h, h']

/-- One column: XOR on the pixel it lands on, nothing where its bit is 0. -/
theorem drawColumn_pixel (x0 y : Nat) (row : Byte) (d : Drawing) (c : Nat) (p : Fin 64) (q : Fin 32) :
    (drawColumn x0 y row d c).1.pixel p q = true ↔
      ¬(d.1.pixel p q = true ↔ row.getLsbD (7 - c) = true ∧ Fin.ofNat 64 (x0 + c) = p ∧ Fin.ofNat 32 y = q) := by
  unfold drawColumn
  split
  · rename_i h
    rw [drawPixel_pixel]
    simp [h]
  · rename_i h
    simp [h]

theorem drawColumn_collides (x0 y : Nat) (row : Byte) (d : Drawing) (c : Nat) :
    (drawColumn x0 y row d c).2 = true ↔
      d.2 = true ∨ (row.getLsbD (7 - c) = true ∧ d.1.pixel (Fin.ofNat 64 (x0 + c)) (Fin.ofNat 32 y) = true) := by
  unfold drawColumn
  split
  · rename_i h
    simp [drawPixel, h]
  · rename_i h
    simp [h]

/-- XOR by two sets of pixels that do not meet is XOR by their union. -/
theorem xor_disjoint {a b c : Prop} (h : b → ¬c) : (¬((¬(a ↔ b)) ↔ c)) ↔ ¬(a ↔ b ∨ c) := by
  by_cases ha : a <;> by_cases hb : b <;> by_cases hc : c <;> simp_all

/-- The eight columns of a row are different pixels (R292). -/
theorem column_ne {x0 c k : Nat} (hc : c < k) (hk : k < 8) : Fin.ofNat 64 (x0 + c) ≠ Fin.ofNat 64 (x0 + k) := by
  intro h
  have := congrArg Fin.val h
  simp only [Fin.val_ofNat] at this
  omega

/-- The first `k` columns of a row: XOR on every pixel they land on, and a collision exactly when one of them was set. -/
theorem drawColumns (x0 y : Nat) (row : Byte) (d : Drawing) (k : Nat) (hk : k ≤ 8) :
    (∀ p q, ((List.range k).foldl (drawColumn x0 y row) d).1.pixel p q = true ↔
      ¬(d.1.pixel p q = true ↔ RowLandsOn x0 y row k p q)) ∧
    (((List.range k).foldl (drawColumn x0 y row) d).2 = true ↔
      d.2 = true ∨ ∃ p q, RowLandsOn x0 y row k p q ∧ d.1.pixel p q = true) := by
  induction k with
  | zero => simp [RowLandsOn]
  | succ k ih =>
    obtain ⟨ih1, ih2⟩ := ih (by omega)
    rw [List.range_succ, List.foldl_append]
    simp only [List.foldl_cons, List.foldl_nil]
    have split : ∀ p q, RowLandsOn x0 y row (k + 1) p q ↔
        RowLandsOn x0 y row k p q ∨
          (row.getLsbD (7 - k) = true ∧ Fin.ofNat 64 (x0 + k) = p ∧ Fin.ofNat 32 y = q) := by
      intro p q
      constructor
      · rintro ⟨c, hc, h⟩
        rcases Nat.lt_succ_iff_lt_or_eq.1 hc with hc | rfl
        · exact .inl ⟨c, hc, h⟩
        · exact .inr h
      · rintro (⟨c, hc, h⟩ | h)
        · exact ⟨c, by omega, h⟩
        · exact ⟨k, by omega, h⟩
    have fresh : ¬RowLandsOn x0 y row k (Fin.ofNat 64 (x0 + k)) (Fin.ofNat 32 y) := by
      rintro ⟨c, hc, -, h, -⟩
      exact column_ne hc (by omega) h
    constructor
    · intro p q
      rw [drawColumn_pixel, ih1, split]
      refine xor_disjoint fun hl hnew => ?_
      obtain ⟨-, rfl, rfl⟩ := hnew
      exact fresh hl
    · rw [drawColumn_collides, ih1, ih2]
      simp only [fresh, iff_false, not_not]
      constructor
      · rintro ((h | ⟨p, q, h, hs⟩) | ⟨h, hs⟩)
        · exact .inl h
        · exact .inr ⟨p, q, (split p q).2 (.inl h), hs⟩
        · exact .inr ⟨_, _, (split _ _).2 (.inr ⟨h, rfl, rfl⟩), hs⟩
      · rintro (h | ⟨p, q, h, hs⟩)
        · exact .inl (.inl h)
        · rcases (split p q).1 h with h | ⟨hb, rfl, rfl⟩
          · exact .inl (.inr ⟨p, q, h, hs⟩)
          · exact .inr ⟨hb, hs⟩

/-- One row of a sprite (R291, R292). -/
theorem drawRow_spec (x0 y : Nat) (row : Byte) (d : Drawing) :
    (∀ p q, (drawRow x0 y row d).1.pixel p q = true ↔ ¬(d.1.pixel p q = true ↔ RowLandsOn x0 y row 8 p q)) ∧
    ((drawRow x0 y row d).2 = true ↔ d.2 = true ∨ ∃ p q, RowLandsOn x0 y row 8 p q ∧ d.1.pixel p q = true) :=
  drawColumns x0 y row d 8 (Nat.le_refl 8)

theorem spriteLandsOn_cons (x0 y0 : Nat) (row : Byte) (rest : List Byte) (p : Fin 64) (q : Fin 32) :
    SpriteLandsOn x0 y0 (row :: rest) p q ↔ RowLandsOn x0 y0 row 8 p q ∨ SpriteLandsOn x0 (y0 + 1) rest p q := by
  constructor
  · rintro ⟨r, hr, h⟩
    cases r with
    | zero => exact .inl h
    | succ r =>
      refine .inr ⟨r, by simpa using hr, ?_⟩
      rwa [show y0 + 1 + r = y0 + (r + 1) by omega]
  · rintro (h | ⟨r, hr, h⟩)
    · exact ⟨0, by simp, h⟩
    · refine ⟨r + 1, by simpa using hr, ?_⟩
      rwa [show y0 + (r + 1) = y0 + 1 + r by omega]

/-- At most 32 rows of a sprite are different rows of the screen (R292). -/
theorem rowLandsOn_not_later {x0 y0 : Nat} {row : Byte} {rest : List Byte} {p : Fin 64} {q : Fin 32}
    (hlen : rest.length < 32) (h : RowLandsOn x0 y0 row 8 p q) : ¬SpriteLandsOn x0 (y0 + 1) rest p q := by
  rintro ⟨r, hr, c', -, -, -, hq'⟩
  obtain ⟨c, -, -, -, hq⟩ := h
  have := congrArg Fin.val (hq.trans hq'.symm)
  simp only [Fin.val_ofNat] at this
  omega

/-- A whole sprite of at most 32 rows: XOR on exactly the pixels it lands on, and a collision exactly when one of them
was set before (R292). -/
theorem drawSprite_spec (x0 y0 : Nat) (rows : List Byte) (d : Drawing) (hlen : rows.length ≤ 32) :
    (∀ p q, (drawSprite x0 y0 rows d).1.pixel p q = true ↔
      ¬(d.1.pixel p q = true ↔ SpriteLandsOn x0 y0 rows p q)) ∧
    ((drawSprite x0 y0 rows d).2 = true ↔
      d.2 = true ∨ ∃ p q, SpriteLandsOn x0 y0 rows p q ∧ d.1.pixel p q = true) := by
  induction rows generalizing y0 d with
  | nil => simp [drawSprite, SpriteLandsOn]
  | cons row rest ih =>
    simp only [List.length_cons] at hlen
    obtain ⟨ih1, ih2⟩ := ih (y0 + 1) (drawRow x0 y0 row d) (by omega)
    obtain ⟨r1, r2⟩ := drawRow_spec x0 y0 row d
    have apart : ∀ p q, RowLandsOn x0 y0 row 8 p q → ¬SpriteLandsOn x0 (y0 + 1) rest p q :=
      fun p q => rowLandsOn_not_later (by omega)
    simp only [drawSprite]
    constructor
    · intro p q
      rw [ih1, r1, spriteLandsOn_cons]
      exact xor_disjoint (apart p q)
    · rw [ih2, r2]
      constructor
      · rintro ((h | ⟨p, q, h, hs⟩) | ⟨p, q, h, hs⟩)
        · exact .inl h
        · exact .inr ⟨p, q, (spriteLandsOn_cons ..).2 (.inl h), hs⟩
        · refine .inr ⟨p, q, (spriteLandsOn_cons ..).2 (.inr h), ?_⟩
          have hr : ¬RowLandsOn x0 y0 row 8 p q := fun e => apart p q e h
          have := (r1 p q).1 hs
          simpa [hr] using this
      · rintro (h | ⟨p, q, h, hs⟩)
        · exact .inl (.inl h)
        · rcases (spriteLandsOn_cons ..).1 h with h | h
          · exact .inl (.inr ⟨p, q, h, hs⟩)
          · refine .inr ⟨p, q, h, (r1 p q).2 ?_⟩
            have hr : ¬RowLandsOn x0 y0 row 8 p q := fun e => apart p q e h
            simpa [hr] using hs

end Sys2Proof.Machine
end

