-- ==== Sys2Proof/Laws/Encoding.lean ====
section
/-! SUPPORT. The fields of a word laid out in a format (spec 30_encoding.md R101, R103). -/

namespace Sys2Proof

/-! ### Fields of a concatenation -/

theorem extract_high {n m : Nat} (a : BitVec n) (b : BitVec m) (s l : Nat) :
    (a ++ b).extractLsb' (m + s) l = a.extractLsb' s l := by
  ext i hi
  simp [BitVec.getLsbD_append, Nat.add_assoc]

theorem extract_low {n m : Nat} (a : BitVec n) (b : BitVec m) (s l : Nat) (h : s + l ≤ m) :
    (a ++ b).extractLsb' s l = b.extractLsb' s l := by
  ext i hi
  simp [BitVec.getLsbD_append, show s + i < m by omega]

theorem extract_all {n : Nat} (a : BitVec n) : a.extractLsb' 0 n = a := by
  ext i hi
  simp

section
variable (c : BitVec 4) (x y : Reg) (f : BitVec 4) (nn : Byte) (nnn : Addr12)

@[simp] theorem fieldC_encAddr : fieldC (encAddr c nnn) = c :=
  (extract_high c nnn 0 4).trans (extract_all c)

@[simp] theorem fieldNNN_encAddr : fieldNNN (encAddr c nnn) = nnn :=
  (extract_low c nnn 0 12 (by decide)).trans (extract_all nnn)

@[simp] theorem fieldC_encRegImm : fieldC (encRegImm c x nn) = c :=
  (extract_high c ((BitVec.ofFin x : BitVec 4) ++ nn) 0 4).trans (extract_all c)

@[simp] theorem fieldX_encRegImm : fieldX (encRegImm c x nn) = x :=
  congrArg BitVec.toFin (((extract_low c ((BitVec.ofFin x : BitVec 4) ++ nn) 8 4 (by decide)).trans
    (extract_high (BitVec.ofFin x : BitVec 4) nn 0 4)).trans (extract_all _))

@[simp] theorem fieldNN_encRegImm : fieldNN (encRegImm c x nn) = nn :=
  ((extract_low c ((BitVec.ofFin x : BitVec 4) ++ nn) 0 8 (by decide)).trans
    (extract_low (BitVec.ofFin x : BitVec 4) nn 0 8 (by decide))).trans (extract_all nn)

@[simp] theorem fieldC_encRegReg : fieldC (encRegReg c x y f) = c :=
  (extract_high c ((BitVec.ofFin x : BitVec 4) ++ ((BitVec.ofFin y : BitVec 4) ++ f)) 0 4).trans (extract_all c)

@[simp] theorem fieldX_encRegReg : fieldX (encRegReg c x y f) = x :=
  congrArg BitVec.toFin (((extract_low c ((BitVec.ofFin x : BitVec 4) ++ ((BitVec.ofFin y : BitVec 4) ++ f)) 8 4
    (by decide)).trans (extract_high (BitVec.ofFin x : BitVec 4) ((BitVec.ofFin y : BitVec 4) ++ f) 0 4)).trans
    (extract_all _))

@[simp] theorem fieldY_encRegReg : fieldY (encRegReg c x y f) = y :=
  congrArg BitVec.toFin ((((extract_low c ((BitVec.ofFin x : BitVec 4) ++ ((BitVec.ofFin y : BitVec 4) ++ f)) 4 4
    (by decide)).trans (extract_low (BitVec.ofFin x : BitVec 4) ((BitVec.ofFin y : BitVec 4) ++ f) 4 4
    (by decide))).trans (extract_high (BitVec.ofFin y : BitVec 4) f 0 4)).trans (extract_all _))

@[simp] theorem fieldN_encRegReg : fieldN (encRegReg c x y f) = f :=
  (((extract_low c ((BitVec.ofFin x : BitVec 4) ++ ((BitVec.ofFin y : BitVec 4) ++ f)) 0 4 (by decide)).trans
    (extract_low (BitVec.ofFin x : BitVec 4) ((BitVec.ofFin y : BitVec 4) ++ f) 0 4 (by decide))).trans
    (extract_low (BitVec.ofFin y : BitVec 4) f 0 4 (by decide))).trans (extract_all f)

end

/-! ### A word from its fields -/

theorem append_extract {n m : Nat} (w : BitVec (n + m)) : w.extractLsb' m n ++ w.extractLsb' 0 m = w := by
  ext i hi
  simp

theorem extract_extract {k : Nat} (w : BitVec k) (n s l : Nat) (h : s + l ≤ n) :
    (w.extractLsb' 0 n).extractLsb' s l = w.extractLsb' s l := by
  ext i hi
  simp [show s + i < n by omega]

theorem encAddr_fields (w : Word) : encAddr (fieldC w) (fieldNNN w) = w := append_extract (n := 4) (m := 12) w

theorem fieldNNN_eq (w : Word) : fieldNNN w = (BitVec.ofFin (fieldX w) : BitVec 4) ++ fieldNN w := by
  refine (append_extract (n := 4) (m := 8) (fieldNNN w)).symm.trans ?_
  rw [fieldNNN, extract_extract w 12 8 4 (by decide), extract_extract w 12 0 8 (by decide)]
  rfl

theorem fieldNN_eq (w : Word) : fieldNN w = (BitVec.ofFin (fieldY w) : BitVec 4) ++ fieldN w := by
  refine (append_extract (n := 4) (m := 4) (fieldNN w)).symm.trans ?_
  rw [fieldNN, extract_extract w 8 4 4 (by decide), extract_extract w 8 0 4 (by decide)]
  rfl

theorem encRegImm_fields (w : Word) : encRegImm (fieldC w) (fieldX w) (fieldNN w) = w := by
  conv_rhs => rw [← encAddr_fields w, fieldNNN_eq w]
  rfl

theorem encRegReg_fields (w : Word) : encRegReg (fieldC w) (fieldX w) (fieldY w) (fieldN w) = w := by
  conv_rhs => rw [← encRegImm_fields w, fieldNN_eq w]
  rfl

/-- The two bytes of a word in memory order make it again (R76). -/
theorem wordOfBytes_extract (w : Word) : wordOfBytes (w.extractLsb' 8 8) (w.extractLsb' 0 8) = w :=
  append_extract (n := 8) (m := 8) w

/-! ### The word as a number (R103) -/

theorem toNat_append_low {n m : Nat} (a : BitVec n) (b : BitVec m) : (a ++ b).toNat = a.toNat * 2 ^ m + b.toNat := by
  rw [BitVec.toNat_append, ← Nat.shiftLeft_add_eq_or_of_lt b.isLt, Nat.shiftLeft_eq]

theorem toNat_encAddr (c : BitVec 4) (nnn : Addr12) : (encAddr c nnn).toNat = 0x1000 * c.toNat + nnn.toNat := by
  rw [encAddr, toNat_append_low]
  omega

theorem toNat_encRegImm (c : BitVec 4) (x : Reg) (nn : Byte) :
    (encRegImm c x nn).toNat = 0x1000 * c.toNat + 0x100 * x.val + nn.toNat := by
  rw [encRegImm, toNat_append_low, toNat_append_low, show (BitVec.ofFin x : BitVec 4).toNat = x.val from rfl]
  omega

theorem toNat_encRegReg (c : BitVec 4) (x y : Reg) (f : BitVec 4) :
    (encRegReg c x y f).toNat = 0x1000 * c.toNat + 0x100 * x.val + 0x10 * y.val + f.toNat := by
  rw [encRegReg, toNat_append_low, toNat_append_low, toNat_append_low,
    show (BitVec.ofFin x : BitVec 4).toNat = x.val from rfl, show (BitVec.ofFin y : BitVec 4).toNat = y.val from rfl]
  omega

/-! ### Masks (R104) -/

theorem and_append {n m : Nat} (a a' : BitVec n) (b b' : BitVec m) : (a ++ b) &&& (a' ++ b') = (a &&& a') ++ (b &&& b') := by
  ext i hi
  by_cases h : i < m <;> simp [BitVec.getElem_append, h]

theorem and_nibbleOnes (c : BitVec 4) : c &&& 0xF#4 = c := BitVec.and_allOnes

theorem and_byteOnes (b : Byte) : b &&& 0xFF#8 = b := BitVec.and_allOnes

theorem encAddr_and_mask (c : BitVec 4) (nnn : Addr12) : encAddr c nnn &&& 0xF000#16 = c ++ (0 : BitVec 12) :=
  (and_append c 0xF#4 nnn 0).trans (by simp [and_nibbleOnes])

theorem encRegImm_and_classMask (c : BitVec 4) (x : Reg) (nn : Byte) :
    encRegImm c x nn &&& 0xF000#16 = c ++ (0 : BitVec 12) :=
  (and_append c 0xF#4 ((BitVec.ofFin x : BitVec 4) ++ nn) 0).trans (by simp [and_nibbleOnes])

theorem encRegImm_and_byteMask (c : BitVec 4) (x : Reg) (nn : Byte) :
    encRegImm c x nn &&& 0xF0FF#16 = c ++ ((0 : BitVec 4) ++ nn) :=
  (and_append c 0xF#4 ((BitVec.ofFin x : BitVec 4) ++ nn) ((0 : BitVec 4) ++ 0xFF#8)).trans (by
    rw [and_append]; simp [and_nibbleOnes, and_byteOnes])

theorem encRegReg_and_classMask (c : BitVec 4) (x y : Reg) (f : BitVec 4) :
    encRegReg c x y f &&& 0xF000#16 = c ++ (0 : BitVec 12) :=
  (and_append c 0xF#4 ((BitVec.ofFin x : BitVec 4) ++ ((BitVec.ofFin y : BitVec 4) ++ f)) 0).trans (by simp [and_nibbleOnes])

theorem encRegReg_and_nibbleMask (c : BitVec 4) (x y : Reg) (f : BitVec 4) :
    encRegReg c x y f &&& 0xF00F#16 = c ++ ((0 : BitVec 4) ++ ((0 : BitVec 4) ++ f)) :=
  (and_append c 0xF#4 ((BitVec.ofFin x : BitVec 4) ++ ((BitVec.ofFin y : BitVec 4) ++ f))
    ((0 : BitVec 4) ++ ((0 : BitVec 4) ++ 0xF#4))).trans (by rw [and_append, and_append]; simp [and_nibbleOnes])

/-- The class mask leaves the class. -/
theorem and_classMask_fields (w : Word) : w &&& 0xF000#16 = fieldC w ++ (0 : BitVec 12) := by
  have h := encAddr_and_mask (fieldC w) (fieldNNN w)
  rwa [encAddr_fields] at h

/-- The class and low-nibble mask leaves those two fields. -/
theorem and_nibbleMask_fields (w : Word) :
    w &&& 0xF00F#16 = fieldC w ++ ((0 : BitVec 4) ++ ((0 : BitVec 4) ++ fieldN w)) := by
  have h := encRegReg_and_nibbleMask (fieldC w) (fieldX w) (fieldY w) (fieldN w)
  rwa [encRegReg_fields] at h

/-- The class and low-byte mask leaves those two fields. -/
theorem and_byteMask_fields (w : Word) : w &&& 0xF0FF#16 = fieldC w ++ ((0 : BitVec 4) ++ fieldNN w) := by
  have h := encRegImm_and_byteMask (fieldC w) (fieldX w) (fieldNN w)
  rwa [encRegImm_fields] at h

end Sys2Proof
end

