-- ==== Sys2Proof/Laws/Step.lean ====
section
/-! SUPPORT. What a step can do, said once (spec 40_pipeline.md R130 to R142), and that a placed word is the one the next
step runs. -/

namespace Sys2Proof.Machine

/-- The core is neither halted nor idle and its fetch stays inside memory. -/
structure State.Fetches (s : State) : Prop where
  notHalted : s.FAULT = none
  notIdle : s.pc.toNat < s.ROM_END
  inMemory : s.pc.toNat + 1 ≤ 0xFFF

theorem State.halted_iff (s : State) : s.halted = true ↔ s.FAULT ≠ none := by
  simp [State.halted, Option.isSome_iff_ne_none]

theorem State.idle_iff (s : State) : s.idle = true ↔ s.ROM_END ≤ s.pc.toNat := by simp [State.idle]

theorem State.fetchOutOfRange_iff (s : State) : s.fetchOutOfRange = true ↔ 0xFFF < s.pc.toNat + 1 := by
  simp [State.fetchOutOfRange]

theorem State.Fetches.flags {s : State} (h : s.Fetches) :
    s.halted = false ∧ s.idle = false ∧ s.fetchOutOfRange = false := by
  have := h.notIdle
  have := h.inMemory
  refine ⟨by simp [State.halted, h.notHalted], ?_, ?_⟩
  · simp only [State.idle, decide_eq_false_iff_not]; omega
  · simp only [State.fetchOutOfRange, decide_eq_false_iff_not]; omega

/-- Where the core fetches a word that is an instruction, the step is that instruction (R137). -/
theorem step_of_instr {s : State} (h : s.Fetches) {i : Instr} (hd : decodeWord s.fetchWord = some i) :
    step s = exec i s.advance := by
  obtain ⟨h1, h2, h3⟩ := h.flags
  simp [step, pipeline, h1, h2, h3, hd]

/-- Where the core fetches an unrecognized word, the step skips it (R142). -/
theorem step_of_unknown {s : State} (h : s.Fetches) (hd : decodeWord s.fetchWord = none) :
    step s = .next s.advance := by
  obtain ⟨h1, h2, h3⟩ := h.flags
  simp [step, pipeline, h1, h2, h3, hd]

/-- Every way a step can answer a next state. -/
theorem step_cases {s t : State} (h : step s = .next t) :
    (s.FAULT ≠ none ∧ t = s) ∨
    (s.FAULT = none ∧ s.ROM_END ≤ s.pc.toNat ∧ t = s) ∨
    (s.FAULT = none ∧ s.pc.toNat < s.ROM_END ∧ 0xFFF < s.pc.toNat + 1 ∧ t = s.raiseFetch) ∨
    (s.Fetches ∧ decodeWord s.fetchWord = none ∧ t = s.advance) ∨
    (s.Fetches ∧ ∃ i, decodeWord s.fetchWord = some i ∧ exec i s.advance = .next t) := by
  by_cases h1 : s.FAULT = none
  · by_cases h2 : s.ROM_END ≤ s.pc.toNat
    · have hi : s.idle = true := s.idle_iff.2 h2
      have hh : s.halted = false := by simp [State.halted, h1]
      simp only [step, pipeline, hh, hi] at h
      exact .inr (.inl ⟨h1, h2, by simpa using h.symm⟩)
    · by_cases h3 : 0xFFF < s.pc.toNat + 1
      · have hh : s.halted = false := by simp [State.halted, h1]
        have hi : s.idle = false := by simp [State.idle]; omega
        have hf : s.fetchOutOfRange = true := s.fetchOutOfRange_iff.2 h3
        simp only [step, pipeline, hh, hi, hf] at h
        exact .inr (.inr (.inl ⟨h1, by omega, h3, by simpa using h.symm⟩))
      · have hf : s.Fetches := ⟨h1, by omega, by omega⟩
        rcases hd : decodeWord s.fetchWord with _ | i
        · rw [step_of_unknown hf hd] at h
          exact .inr (.inr (.inr (.inl ⟨hf, rfl, by simpa using h.symm⟩)))
        · rw [step_of_instr hf hd] at h
          exact .inr (.inr (.inr (.inr ⟨hf, i, rfl, h⟩)))
  · have hh : s.halted = true := s.halted_iff.2 h1
    simp only [step, pipeline, hh] at h
    exact .inl ⟨h1, by simpa using h.symm⟩

/-! ### The placed word -/

theorem State.fetchPlace_lt (s : State) : s.fetchPlace.toNat + 1 ≤ 0xFFF := by
  unfold State.fetchPlace
  split
  · decide
  · rename_i h
    rw [State.fetchOutOfRange_iff] at h
    omega

theorem State.placeFetchWord_fetches (s : State) (w : Word) : (s.placeFetchWord w).Fetches := by
  refine ⟨rfl, ?_, s.fetchPlace_lt⟩
  show s.fetchPlace.toNat < max s.ROM_END (s.fetchPlace.toNat + 2)
  omega

theorem State.fetchWord_placeFetchWord (s : State) (w : Word) (h : s.M.wf) : (s.placeFetchWord w).fetchWord = w := by
  have hp := s.fetchPlace_lt
  have hlo := Memory.read_writeBytes_inside s.M s.fetchPlace.toNat 0 [w.extractLsb' 8 8, w.extractLsb' 0 8] h
    (by simp) (by simp [Config.memSize]; omega)
  have hhi := Memory.read_writeBytes_inside s.M s.fetchPlace.toNat 1 [w.extractLsb' 8 8, w.extractLsb' 0 8] h
    (by simp) (by simp [Config.memSize]; omega)
  simp only [Nat.add_zero] at hlo
  unfold State.fetchWord Memory.readWord State.placeFetchWord
  simp only [hlo, hhi]
  exact wordOfBytes_extract w

/-- The very next step runs the placed instruction. -/
theorem step_withFetchWord (s : State) (nbits w : Nat) (i : Instr) (h : s.M.wf)
    (hd : decodeWord (tableWord nbits w) = some i) :
    step (s.withFetchWord nbits w) = exec i (s.withFetchWord nbits w).advance := by
  have hf : (s.withFetchWord nbits w).fetchWord = tableWord nbits w := s.fetchWord_placeFetchWord _ h
  have hp : (s.withFetchWord nbits w).Fetches := s.placeFetchWord_fetches _
  exact step_of_instr hp (hf ▸ hd)

end Sys2Proof.Machine
end

