-- ==== Sys2Proof/Laws/Exec.lean ====
section
/-! SUPPORT. What each instruction that checks something first answers on either side of its check, so that no later
proof unfolds its meaning. -/

namespace Sys2Proof.Machine

/-! ### The stack pointer -/

theorem sp_ne_full {s : State} (h : s.sp.val < 15) : s.sp ≠ 15 := fun e => by simp [e] at h

theorem sp_ne_empty {s : State} (h : 0 < s.sp.val) : s.sp ≠ 0 := fun e => by simp [e] at h

theorem val_sp_push {s : State} (h : s.sp.val < 15) (v : Word) : (s.push v).sp.val = s.sp.val + 1 := by
  show (s.sp + 1 : Fin 16).val = _
  rw [Fin.val_add]
  simp
  omega

theorem val_sp_pop {s : State} (h : 0 < s.sp.val) : s.pop.sp.val = s.sp.val - 1 := by
  have := s.sp.isLt
  show (s.sp - 1 : Fin 16).val = _
  rw [Fin.val_sub]
  simp
  omega

/-- A push writes the next slot and no other (R162). -/
theorem slot_push {s : State} (h : s.sp.val < 15) (v : Word) (k : Fin 16) :
    (s.push v).S[k] = if k.val = s.sp.val + 1 then v else s.S[k] := by
  have := val_sp_push h v
  simp only [State.sp_push] at this
  simp [State.push, Vector.getElem_set, this, eq_comm]

/-! ### Control flow -/

theorem exec_call {s : State} (nnn : Addr12) (h : s.sp.val < 15) :
    exec (.op2NNN nnn) s = .next ((s.push s.pc).setPc (zext16 nnn)) := if_neg (sp_ne_full h)

theorem exec_call_full {s : State} (nnn : Addr12) (h : s.sp.val = 15) :
    exec (.op2NNN nnn) s = .next (s.raiseIn (.op2NNN nnn) .stackOverflow 15) := if_pos (Fin.ext h)

theorem exec_return {s : State} (h : 0 < s.sp.val) : exec .op00EE s = .next (s.pop.setPc s.stackTop) :=
  if_neg (sp_ne_empty h)

theorem exec_return_empty {s : State} (h : s.sp.val = 0) :
    exec .op00EE s = .next (s.raiseIn .op00EE .stackUnderflow 0) := if_pos (Fin.ext h)

/-! ### Index, load and store -/

theorem exec_addIndex {s : State} {x : Reg} (h : s.I.toNat + (s.getV x).toNat ≤ 0xFFF) :
    exec (.opFX1E x) s = .next (s.setI (BitVec.ofNat 16 (s.indexSum x))) :=
  if_neg (show ¬s.I.toNat + (s.getV x).toNat > 0xFFF by omega)

theorem exec_addIndex_out {s : State} {x : Reg} (h : s.I.toNat + (s.getV x).toNat > 0xFFF) :
    exec (.opFX1E x) s =
      .next (s.raiseIn (.opFX1E x) .addressOutOfRange (BitVec.ofNat 16 (s.I.toNat + (s.getV x).toNat))) :=
  if_pos h

theorem dataBase_inRange {s : State} {n : Nat} (h : n = 0 ∨ s.I.toNat + n ≤ Config.memSize) :
    outOfRange s.dataBase n = false := (outOfRange_eq_false_iff ..).2 h

theorem dataBase_outOfRange {s : State} {n : Nat} (h1 : 1 ≤ n) (h : Config.memSize < s.I.toNat + n) :
    outOfRange s.dataBase n = true := (outOfRange_iff ..).2 ⟨h1, h⟩

theorem exec_bcd {s : State} {x : Reg} (h : s.I.toNat + 2 ≤ 0xFFF) :
    exec (.opFX33 x) s = .next (s.storeBytes s.I.toNat (bcdDigits (s.getV x))) := by
  simp only [exec, execFX33, dataBase_inRange (s := s) (n := 3) (.inr (by simp only [Config.memSize]; omega))]
  rfl

theorem exec_bcd_out {s : State} {x : Reg} (h : s.I.toNat + 2 > 0xFFF) :
    exec (.opFX33 x) s = .next (s.raiseIn (.opFX33 x) .addressOutOfRange 0x1000) := by
  simp only [exec, execFX33, dataBase_outOfRange (s := s) (n := 3) (by decide) (by simp only [Config.memSize]; omega)]
  rfl

theorem exec_dump {s : State} {x : Reg} (h : s.I.toNat + x.val ≤ 0xFFF) :
    exec (.opFX55 x) s = .next (s.storeBytes s.I.toNat (s.dumpV x)) := by
  simp only [exec, execFX55, dataBase_inRange (s := s) (n := x.val + 1) (.inr (by simp only [Config.memSize]; omega))]
  rfl

theorem exec_dump_out {s : State} {x : Reg} (h : s.I.toNat + x.val > 0xFFF) :
    exec (.opFX55 x) s = .next (s.raiseIn (.opFX55 x) .addressOutOfRange 0x1000) := by
  simp only [exec, execFX55,
    dataBase_outOfRange (s := s) (n := x.val + 1) (by omega) (by simp only [Config.memSize]; omega)]
  rfl

theorem exec_load {s : State} {x : Reg} (h : s.I.toNat + x.val ≤ 0xFFF) :
    exec (.opFX65 x) s = .next (s.loadV x fun k => s.readByte (s.I.toNat + k)) := by
  simp only [exec, execFX65, dataBase_inRange (s := s) (n := x.val + 1) (.inr (by simp only [Config.memSize]; omega))]
  rfl

theorem exec_load_out {s : State} {x : Reg} (h : s.I.toNat + x.val > 0xFFF) :
    exec (.opFX65 x) s = .next (s.raiseIn (.opFX65 x) .addressOutOfRange 0x1000) := by
  simp only [exec, execFX65,
    dataBase_outOfRange (s := s) (n := x.val + 1) (by omega) (by simp only [Config.memSize]; omega)]
  rfl

/-! ### Display -/

theorem exec_draw {s : State} {x y : Reg} {n : Nat} (h : n = 0 ∨ s.I.toNat + n - 1 ≤ 0xFFF) :
    exec (.opDXYN x y n) s =
      .next ((s.setFB (s.drawing x y n).1).setV vF (flagByte (s.drawing x y n).2)) := by
  simp only [exec, execDXYN, dataBase_inRange (s := s) (n := n) (by simp only [Config.memSize]; omega)]
  rfl

theorem exec_draw_out {s : State} {x y : Reg} {n : Nat} (h1 : 1 ≤ n) (h : s.I.toNat + n - 1 > 0xFFF) :
    exec (.opDXYN x y n) s = .next (s.raiseIn (.opDXYN x y n) .addressOutOfRange 0x1000) := by
  simp only [exec, execDXYN, dataBase_outOfRange (s := s) (n := n) h1 (by simp only [Config.memSize]; omega)]
  rfl

/-! ### Keypad -/

theorem skipIfKey_valid {s : State} {x : Reg} {k : Key} (h : (s.getV x).toNat = k.val) (i : Instr) (level : Bool) :
    s.skipIfKey i x level = s.skipIf (s.KEY[k] == level) := by
  simp only [State.skipIfKey, (keyOf_eq_some_iff _ k).2 h]

theorem skipIfKey_invalid {s : State} {x : Reg} (h : 0xF < (s.getV x).toNat) (i : Instr) (level : Bool) :
    s.skipIfKey i x level = s.raiseIn i .keyIndexOutOfRange (zext16Byte (s.getV x)) := by
  simp only [State.skipIfKey, (keyOf_eq_none_iff _).2 h]

theorem exec_keyWait {s : State} {k : Key} (x : Reg) (h : s.PENDING = some k) :
    exec (.opFX0A x) s = .next ((s.setV x (narrow8 k.val)).setPENDING none) := by
  simp only [exec, execFX0A, h]

theorem exec_keyWait_none {s : State} (x : Reg) (h : s.PENDING = none) :
    exec (.opFX0A x) s = .next (s.setPc (s.pc - 2)) := by
  simp only [exec, execFX0A, h]

end Sys2Proof.Machine
end

