-- ==== Sys2Proof/Laws/HostOps.lean ====
section
/-! SUPPORT. What a host operation can do, said once (spec 60_exceptions.md R361 to R369). -/

namespace Sys2Proof.Machine

/-- A host operation writes nothing but the timers, the keypad, the pending key and the random supply (R369). -/
theorem applyHostOp_frame (op : HostOp) (s : State) :
    applyHostOp op s =
      { s with
        DT := (applyHostOp op s).DT
        ST := (applyHostOp op s).ST
        KEY := (applyHostOp op s).KEY
        PENDING := (applyHostOp op s).PENDING
        rndSupply := (applyHostOp op s).rndSupply } := by
  cases op with
  | delayTick => simp only [applyHostOp, State.delayTick]; split <;> rfl
  | soundTick => simp only [applyHostOp, State.soundTick]; split <;> rfl
  | keyDown k => rfl
  | keyUp k => rfl
  | supplyRandom b => rfl

/-- PENDING is written by a key-down, with its key, and by no other host operation (R363, R364). -/
theorem PENDING_applyHostOp (op : HostOp) (s : State) :
    (applyHostOp op s).PENDING = match op with
      | .keyDown k => some k
      | .delayTick => s.PENDING
      | .soundTick => s.PENDING
      | .keyUp _ => s.PENDING
      | .supplyRandom _ => s.PENDING := by
  cases op with
  | delayTick => simp only [applyHostOp, State.delayTick]; split <;> rfl
  | soundTick => simp only [applyHostOp, State.soundTick]; split <;> rfl
  | keyDown k => rfl
  | keyUp k => rfl
  | supplyRandom b => rfl

end Sys2Proof.Machine
end

