-- ==== Sys2Proof/Laws/PerInstr.lean ====
section
/-! SUPPORT. One lemma per constructor of Instr: an instruction's word matches the row of the opcode map it is listed in
(spec 30_encoding.md R104), and that row is in the map. -/

namespace Sys2Proof

namespace Laws.EncodesItsRow

/-- The instruction's word matches its own row, which is a row of the opcode map (R104). -/
def Statement (i : Instr) : Prop := i.row ∈ opcodeTable ∧ i.row.matchesWord (encode i) = true

theorem op00E0 : Statement .op00E0 :=
  ⟨(by decide : (⟨0x00E0#16, 0xFFFF#16⟩ : OpcodeRow) ∈ opcodeTable), by decide⟩

theorem op00EE : Statement .op00EE :=
  ⟨(by decide : (⟨0x00EE#16, 0xFFFF#16⟩ : OpcodeRow) ∈ opcodeTable), by decide⟩

theorem op1NNN (nnn : Addr12) : Statement (.op1NNN nnn) :=
  ⟨(by decide : (⟨0x1000#16, 0xF000#16⟩ : OpcodeRow) ∈ opcodeTable),
    by simp [OpcodeRow.matchesWord, Instr.row, encode, encAddr_and_mask]⟩

theorem op2NNN (nnn : Addr12) : Statement (.op2NNN nnn) :=
  ⟨(by decide : (⟨0x2000#16, 0xF000#16⟩ : OpcodeRow) ∈ opcodeTable),
    by simp [OpcodeRow.matchesWord, Instr.row, encode, encAddr_and_mask]⟩

theorem op3XNN (x : Reg) (nn : Byte) : Statement (.op3XNN x nn) :=
  ⟨(by decide : (⟨0x3000#16, 0xF000#16⟩ : OpcodeRow) ∈ opcodeTable),
    by simp [OpcodeRow.matchesWord, Instr.row, encode, encRegImm_and_classMask]⟩

theorem op4XNN (x : Reg) (nn : Byte) : Statement (.op4XNN x nn) :=
  ⟨(by decide : (⟨0x4000#16, 0xF000#16⟩ : OpcodeRow) ∈ opcodeTable),
    by simp [OpcodeRow.matchesWord, Instr.row, encode, encRegImm_and_classMask]⟩

theorem op5XY0 (x : Reg) (y : Reg) : Statement (.op5XY0 x y) :=
  ⟨(by decide : (⟨0x5000#16, 0xF00F#16⟩ : OpcodeRow) ∈ opcodeTable),
    by simp [OpcodeRow.matchesWord, Instr.row, encode, encRegReg_and_nibbleMask]⟩

theorem op6XNN (x : Reg) (nn : Byte) : Statement (.op6XNN x nn) :=
  ⟨(by decide : (⟨0x6000#16, 0xF000#16⟩ : OpcodeRow) ∈ opcodeTable),
    by simp [OpcodeRow.matchesWord, Instr.row, encode, encRegImm_and_classMask]⟩

theorem op7XNN (x : Reg) (nn : Byte) : Statement (.op7XNN x nn) :=
  ⟨(by decide : (⟨0x7000#16, 0xF000#16⟩ : OpcodeRow) ∈ opcodeTable),
    by simp [OpcodeRow.matchesWord, Instr.row, encode, encRegImm_and_classMask]⟩

theorem op8XY0 (x : Reg) (y : Reg) : Statement (.op8XY0 x y) :=
  ⟨(by decide : (⟨0x8000#16, 0xF00F#16⟩ : OpcodeRow) ∈ opcodeTable),
    by simp [OpcodeRow.matchesWord, Instr.row, encode, encRegReg_and_nibbleMask]⟩

theorem op8XY1 (x : Reg) (y : Reg) : Statement (.op8XY1 x y) :=
  ⟨(by decide : (⟨0x8001#16, 0xF00F#16⟩ : OpcodeRow) ∈ opcodeTable),
    by simp [OpcodeRow.matchesWord, Instr.row, encode, encRegReg_and_nibbleMask]⟩

theorem op8XY2 (x : Reg) (y : Reg) : Statement (.op8XY2 x y) :=
  ⟨(by decide : (⟨0x8002#16, 0xF00F#16⟩ : OpcodeRow) ∈ opcodeTable),
    by simp [OpcodeRow.matchesWord, Instr.row, encode, encRegReg_and_nibbleMask]⟩

theorem op8XY3 (x : Reg) (y : Reg) : Statement (.op8XY3 x y) :=
  ⟨(by decide : (⟨0x8003#16, 0xF00F#16⟩ : OpcodeRow) ∈ opcodeTable),
    by simp [OpcodeRow.matchesWord, Instr.row, encode, encRegReg_and_nibbleMask]⟩

theorem op8XY4 (x : Reg) (y : Reg) : Statement (.op8XY4 x y) :=
  ⟨(by decide : (⟨0x8004#16, 0xF00F#16⟩ : OpcodeRow) ∈ opcodeTable),
    by simp [OpcodeRow.matchesWord, Instr.row, encode, encRegReg_and_nibbleMask]⟩

theorem op8XY5 (x : Reg) (y : Reg) : Statement (.op8XY5 x y) :=
  ⟨(by decide : (⟨0x8005#16, 0xF00F#16⟩ : OpcodeRow) ∈ opcodeTable),
    by simp [OpcodeRow.matchesWord, Instr.row, encode, encRegReg_and_nibbleMask]⟩

theorem op8XY6 (x : Reg) (y : Reg) : Statement (.op8XY6 x y) :=
  ⟨(by decide : (⟨0x8006#16, 0xF00F#16⟩ : OpcodeRow) ∈ opcodeTable),
    by simp [OpcodeRow.matchesWord, Instr.row, encode, encRegReg_and_nibbleMask]⟩

theorem op8XY7 (x : Reg) (y : Reg) : Statement (.op8XY7 x y) :=
  ⟨(by decide : (⟨0x8007#16, 0xF00F#16⟩ : OpcodeRow) ∈ opcodeTable),
    by simp [OpcodeRow.matchesWord, Instr.row, encode, encRegReg_and_nibbleMask]⟩

theorem op8XYE (x : Reg) (y : Reg) : Statement (.op8XYE x y) :=
  ⟨(by decide : (⟨0x800E#16, 0xF00F#16⟩ : OpcodeRow) ∈ opcodeTable),
    by simp [OpcodeRow.matchesWord, Instr.row, encode, encRegReg_and_nibbleMask]⟩

theorem op9XY0 (x : Reg) (y : Reg) : Statement (.op9XY0 x y) :=
  ⟨(by decide : (⟨0x9000#16, 0xF00F#16⟩ : OpcodeRow) ∈ opcodeTable),
    by simp [OpcodeRow.matchesWord, Instr.row, encode, encRegReg_and_nibbleMask]⟩

theorem opANNN (nnn : Addr12) : Statement (.opANNN nnn) :=
  ⟨(by decide : (⟨0xA000#16, 0xF000#16⟩ : OpcodeRow) ∈ opcodeTable),
    by simp [OpcodeRow.matchesWord, Instr.row, encode, encAddr_and_mask]⟩

theorem opBNNN (nnn : Addr12) : Statement (.opBNNN nnn) :=
  ⟨(by decide : (⟨0xB000#16, 0xF000#16⟩ : OpcodeRow) ∈ opcodeTable),
    by simp [OpcodeRow.matchesWord, Instr.row, encode, encAddr_and_mask]⟩

theorem opCXNN (x : Reg) (nn : Byte) : Statement (.opCXNN x nn) :=
  ⟨(by decide : (⟨0xC000#16, 0xF000#16⟩ : OpcodeRow) ∈ opcodeTable),
    by simp [OpcodeRow.matchesWord, Instr.row, encode, encRegImm_and_classMask]⟩

theorem opDXYN (x : Reg) (y : Reg) (n : Nat) : Statement (.opDXYN x y n) :=
  ⟨(by decide : (⟨0xD000#16, 0xF000#16⟩ : OpcodeRow) ∈ opcodeTable),
    by simp [OpcodeRow.matchesWord, Instr.row, encode, encRegReg_and_classMask]⟩

theorem opEX9E (x : Reg) : Statement (.opEX9E x) :=
  ⟨(by decide : (⟨0xE09E#16, 0xF0FF#16⟩ : OpcodeRow) ∈ opcodeTable),
    by simp [OpcodeRow.matchesWord, Instr.row, encode, encRegImm_and_byteMask]⟩

theorem opEXA1 (x : Reg) : Statement (.opEXA1 x) :=
  ⟨(by decide : (⟨0xE0A1#16, 0xF0FF#16⟩ : OpcodeRow) ∈ opcodeTable),
    by simp [OpcodeRow.matchesWord, Instr.row, encode, encRegImm_and_byteMask]⟩

theorem opFX07 (x : Reg) : Statement (.opFX07 x) :=
  ⟨(by decide : (⟨0xF007#16, 0xF0FF#16⟩ : OpcodeRow) ∈ opcodeTable),
    by simp [OpcodeRow.matchesWord, Instr.row, encode, encRegImm_and_byteMask]⟩

theorem opFX0A (x : Reg) : Statement (.opFX0A x) :=
  ⟨(by decide : (⟨0xF00A#16, 0xF0FF#16⟩ : OpcodeRow) ∈ opcodeTable),
    by simp [OpcodeRow.matchesWord, Instr.row, encode, encRegImm_and_byteMask]⟩

theorem opFX15 (x : Reg) : Statement (.opFX15 x) :=
  ⟨(by decide : (⟨0xF015#16, 0xF0FF#16⟩ : OpcodeRow) ∈ opcodeTable),
    by simp [OpcodeRow.matchesWord, Instr.row, encode, encRegImm_and_byteMask]⟩

theorem opFX18 (x : Reg) : Statement (.opFX18 x) :=
  ⟨(by decide : (⟨0xF018#16, 0xF0FF#16⟩ : OpcodeRow) ∈ opcodeTable),
    by simp [OpcodeRow.matchesWord, Instr.row, encode, encRegImm_and_byteMask]⟩

theorem opFX1E (x : Reg) : Statement (.opFX1E x) :=
  ⟨(by decide : (⟨0xF01E#16, 0xF0FF#16⟩ : OpcodeRow) ∈ opcodeTable),
    by simp [OpcodeRow.matchesWord, Instr.row, encode, encRegImm_and_byteMask]⟩

theorem opFX29 (x : Reg) : Statement (.opFX29 x) :=
  ⟨(by decide : (⟨0xF029#16, 0xF0FF#16⟩ : OpcodeRow) ∈ opcodeTable),
    by simp [OpcodeRow.matchesWord, Instr.row, encode, encRegImm_and_byteMask]⟩

theorem opFX33 (x : Reg) : Statement (.opFX33 x) :=
  ⟨(by decide : (⟨0xF033#16, 0xF0FF#16⟩ : OpcodeRow) ∈ opcodeTable),
    by simp [OpcodeRow.matchesWord, Instr.row, encode, encRegImm_and_byteMask]⟩

theorem opFX55 (x : Reg) : Statement (.opFX55 x) :=
  ⟨(by decide : (⟨0xF055#16, 0xF0FF#16⟩ : OpcodeRow) ∈ opcodeTable),
    by simp [OpcodeRow.matchesWord, Instr.row, encode, encRegImm_and_byteMask]⟩

theorem opFX65 (x : Reg) : Statement (.opFX65 x) :=
  ⟨(by decide : (⟨0xF065#16, 0xF0FF#16⟩ : OpcodeRow) ∈ opcodeTable),
    by simp [OpcodeRow.matchesWord, Instr.row, encode, encRegImm_and_byteMask]⟩

end Laws.EncodesItsRow

end Sys2Proof
end

