-- ==== Sys2Proof/Tests/Slice0.lean ====
section
/-! SUPPORT. The model's own tests: the well-formedness smoke test, one word of every encoding, single steps whose
results are the vectors of spec 95_test_vectors.md (named in each test), and for every obligation with hypotheses a
concrete state that meets them. -/

set_option maxRecDepth 8000

namespace Sys2Proof.Tests

open Sys2Proof.Machine Sys2Proof.Claims

/-! ### Helpers -/

/-- Reset, with the one-word ROM of section 0 of 95_test_vectors.md at 0x200. -/
def rom1 (w : Nat) : State := State.reset.withFetchWord 16 w

/-- What a field reads after one step. -/
def after {α : Type} (s : State) (f : State → α) : Option α :=
  match step s with
  | .next t => some (f t)
  | _ => none

/-- The same state with the other shift source. -/
def quirky (s : State) : State := { s with SHIFT_QUIRK := .fromVy }

/-- The pixels of row y that are set. -/
def rowSet (s : State) (y : Fin 32) : List Nat :=
  ((List.finRange 64).filter fun x => s.FB.pixel x y).map Fin.val

/-! ### Well-formedness -/

theorem test_wf_rejects_sixteen_rows : (Instr.opDXYN 0 0 16).wf = false := by decide
theorem test_wf_accepts_fifteen_rows : (Instr.opDXYN 15 15 15).wf = true := by decide

/-! ### Decoding: one word of every row, its bits from the Encoding line of the instruction's rule -/

theorem test_decode_control :
    decodeWord 0b0000000011101110 = some .op00EE ∧
    decodeWord 0b0001001000001000 = some (.op1NNN 0x208) ∧
    decodeWord 0b0010001100000000 = some (.op2NNN 0x300) ∧
    decodeWord 0b0011000100000101 = some (.op3XNN 1 0x05) ∧
    decodeWord 0b0100000100000110 = some (.op4XNN 1 0x06) ∧
    decodeWord 0b0101000100100000 = some (.op5XY0 1 2) ∧
    decodeWord 0b1001000100100000 = some (.op9XY0 1 2) ∧
    decodeWord 0b1011001100000000 = some (.opBNNN 0x300) := by decide

theorem test_decode_alu :
    decodeWord 0b0110101000101011 = some (.op6XNN 10 0x2B) ∧
    decodeWord 0b0111001100000001 = some (.op7XNN 3 0x01) ∧
    decodeWord 0b1000000100100000 = some (.op8XY0 1 2) ∧
    decodeWord 0b1000000100100001 = some (.op8XY1 1 2) ∧
    decodeWord 0b1000000100100010 = some (.op8XY2 1 2) ∧
    decodeWord 0b1000000100100011 = some (.op8XY3 1 2) ∧
    decodeWord 0b1000000100100100 = some (.op8XY4 1 2) ∧
    decodeWord 0b1000000100100101 = some (.op8XY5 1 2) ∧
    decodeWord 0b1000000100100110 = some (.op8XY6 1 2) ∧
    decodeWord 0b1000000100100111 = some (.op8XY7 1 2) ∧
    decodeWord 0b1000000100101110 = some (.op8XYE 1 2) ∧
    decodeWord 0b1100001100001111 = some (.opCXNN 3 0x0F) := by decide

theorem test_decode_loadstore :
    decodeWord 0b1010001011110000 = some (.opANNN 0x2F0) ∧
    decodeWord 0b1111001000011110 = some (.opFX1E 2) ∧
    decodeWord 0b1111010000101001 = some (.opFX29 4) ∧
    decodeWord 0b1111010100110011 = some (.opFX33 5) ∧
    decodeWord 0b1111001001010101 = some (.opFX55 2) ∧
    decodeWord 0b1111001001100101 = some (.opFX65 2) := by decide

theorem test_decode_display_timers_keypad :
    decodeWord 0b0000000011100000 = some .op00E0 ∧
    decodeWord 0b1101000000010101 = some (.opDXYN 0 1 5) ∧
    decodeWord 0b1110001010011110 = some (.opEX9E 2) ∧
    decodeWord 0b1110001010100001 = some (.opEXA1 2) ∧
    decodeWord 0b1111001100000111 = some (.opFX07 3) ∧
    decodeWord 0b1111001100001010 = some (.opFX0A 3) ∧
    decodeWord 0b1111000100010101 = some (.opFX15 1) ∧
    decodeWord 0b1111000100011000 = some (.opFX18 1) := by decide

/-- The unrecognized words of section 2.1. -/
theorem test_decode_unrecognized :
    [0x0000, 0x0123, 0x00E1, 0x5121, 0x8128, 0x812F, 0x9121, 0xE19F, 0xF1FF, 0xF100].all
      (fun w => decodeWord w == none) = true := by decide

theorem test_decode_bytes : decode [0x81, 0x24, 0x00] = .ok (.op8XY4 1 2, [0x00]) := by decide
theorem test_decode_rejects : decode [0x81, 0x28] = .error (.unknownOpcode 0x8128) ∧ decode [0x81] = .error .truncated := by
  decide
theorem test_table_word : decodeTableWord 16 0x8124 = some (.op8XY4 1 2) := by decide

/-! ### Control flow (section 2.2) -/

/-- V-CF1. -/
theorem test_jump : after (rom1 0x1208) State.pc = some 0x208 := by decide
/-- V-CF5. -/
theorem test_call_last_slot :
    after { rom1 0x2300 with sp := 14 } (fun t => (t.pc, t.sp, t.S[15])) = some (0x300, 15, 0x202) := by decide
/-- V-CF6. -/
theorem test_call_overflow : after { rom1 0x2300 with sp := 15 } (fun t => (t.pc, t.sp, t.FAULT)) =
    some (0x200, 15, some ⟨.stackOverflow, 0x200, 0x2300, 15⟩) := by decide
/-- W5: the return of a call at 0x200. -/
theorem test_return : after { rom1 0x00EE with sp := 1, S := State.reset.S.set 1 0x204 }
    (fun t => (t.pc, t.sp, t.S[1])) = some (0x204, 0, 0x204) := by decide
/-- V-CF8. -/
theorem test_return_underflow :
    after (rom1 0x00EE) State.FAULT = some (some ⟨.stackUnderflow, 0x200, 0x00EE, 0⟩) := by decide
/-- V-CF9. -/
theorem test_3XNN_skips : after ((rom1 0x3105).setV 1 5) State.pc = some 0x204 := by decide
/-- V-CF10. -/
theorem test_3XNN_falls : after ((rom1 0x3106).setV 1 5) State.pc = some 0x202 := by decide
/-- V-CF11. -/
theorem test_4XNN_falls : after ((rom1 0x4105).setV 1 5) State.pc = some 0x202 := by decide
/-- V-CF12. -/
theorem test_4XNN_skips : after ((rom1 0x4106).setV 1 5) State.pc = some 0x204 := by decide
/-- V-CF13. -/
theorem test_5XY0_skips : after (((rom1 0x5120).setV 1 7).setV 2 7) State.pc = some 0x204 := by decide
/-- V-CF14. -/
theorem test_5XY0_falls : after (((rom1 0x5120).setV 1 7).setV 2 8) State.pc = some 0x202 := by decide
/-- V-CF16. -/
theorem test_9XY0_skips : after (((rom1 0x9120).setV 1 7).setV 2 8) State.pc = some 0x204 := by decide
/-- V-CF18. -/
theorem test_9XY0_falls : after (rom1 0x9110) State.pc = some 0x202 := by decide
/-- V-CF20: not masked. -/
theorem test_BNNN : after ((rom1 0xBFFF).setV 0 0xFF) State.pc = some 0x10FE := by decide

/-! ### ALU and shifts (section 2.3) -/

/-- V-A1. -/
theorem test_6XNN : after (rom1 0x6A2B) (fun t => (t.getV 10, t.pc)) = some (0x2B, 0x202) := by decide
/-- V-A3. -/
theorem test_7XNN_wraps : after ((rom1 0x7301).setV 3 0xFF) (fun t => (t.getV 3, t.getV 15)) = some (0, 0) := by decide
/-- V-A5. -/
theorem test_8XY0 : after ((rom1 0x8120).setV 2 0x11) (fun t => (t.getV 1, t.getV 2)) = some (0x11, 0x11) := by decide
/-- V-A6: VF is not reset. -/
theorem test_8XY1 : after ((((rom1 0x8121).setV 1 0x0F).setV 2 0xF0).setV 15 1) (fun t => (t.getV 1, t.getV 15)) =
    some (0xFF, 1) := by decide
/-- V-A7. -/
theorem test_8XY2 : after (((rom1 0x8122).setV 1 0x3C).setV 2 0x0F) (fun t => t.getV 1) = some 0x0C := by decide
/-- V-A8. -/
theorem test_8XY3 : after (((rom1 0x8123).setV 1 0x3C).setV 2 0x0F) (fun t => t.getV 1) = some 0x33 := by decide
/-- V-A10. -/
theorem test_8XY4_carry : after (((rom1 0x8124).setV 1 250).setV 2 10) (fun t => (t.getV 1, t.getV 15)) =
    some (4, 1) := by decide
/-- V-A14: the result lands after the carry. -/
theorem test_8XY4_into_VF : after (((rom1 0x8F14).setV 15 200).setV 1 100) (fun t => t.getV 15) = some 0x2C := by decide
/-- V-A17. -/
theorem test_8XY5_borrow : after (((rom1 0x8125).setV 1 3).setV 2 5) (fun t => (t.getV 1, t.getV 15)) =
    some (254, 0) := by decide
/-- V-A18: equal gives no borrow. -/
theorem test_8XY5_equal : after (((rom1 0x8125).setV 1 7).setV 2 7) (fun t => (t.getV 1, t.getV 15)) =
    some (0, 1) := by decide
/-- V-A21. -/
theorem test_8XY7_borrow : after (((rom1 0x8127).setV 1 5).setV 2 3) (fun t => (t.getV 1, t.getV 15)) =
    some (254, 0) := by decide
/-- V-A22. -/
theorem test_8XY7 : after (((rom1 0x8127).setV 1 3).setV 2 5) (fun t => (t.getV 1, t.getV 15)) = some (2, 1) := by decide
/-- V-A26 under InPlace. -/
theorem test_8XY6 : after (((rom1 0x8126).setV 1 4).setV 2 3) (fun t => (t.getV 1, t.getV 15)) = some (2, 0) := by decide
/-- V-A26 under FromVy. -/
theorem test_8XY6_fromVy : after (quirky (((rom1 0x8126).setV 1 4).setV 2 3))
    (fun t => (t.getV 1, t.getV 15, t.getV 2)) = some (1, 1, 3) := by decide
/-- V-A30 under InPlace. -/
theorem test_8XYE : after (((rom1 0x812E).setV 1 1).setV 2 0x80) (fun t => (t.getV 1, t.getV 15)) = some (2, 0) := by
  decide
/-- V-A30 under FromVy. -/
theorem test_8XYE_fromVy : after (quirky (((rom1 0x812E).setV 1 1).setV 2 0x80))
    (fun t => (t.getV 1, t.getV 15, t.getV 2)) = some (0, 1, 0x80) := by decide
/-- V-A33. -/
theorem test_CXNN : after ((rom1 0xC30F).supplyRandom 0xA7) (fun t => (t.getV 3, t.rndSupply)) = some (0x07, []) := by
  decide

/-! ### Index register and load-store (section 2.4) -/

/-- V-L1. -/
theorem test_ANNN : after (rom1 0xA2F0) State.I = some 0x2F0 := by decide
/-- V-L3. -/
theorem test_FX1E : after (((rom1 0xF11E).setI 0xFFE).setV 1 1) (fun t => (t.I, t.getV 15)) = some (0xFFF, 0) := by decide
/-- V-L5. -/
theorem test_FX1E_faults : after (((rom1 0xF11E).setI 0xFFF).setV 1 7) (fun t => (t.I, t.FAULT)) =
    some (0xFFF, some ⟨.addressOutOfRange, 0x200, 0xF11E, 0x1006⟩) := by decide
/-- V-L8: the high nibble is ignored. -/
theorem test_FX29 : after ((rom1 0xF129).setV 1 0x1A) State.I = some 0x032 := by decide
/-- V-L9. -/
theorem test_FX33 : after (((rom1 0xF533).setV 5 156).setI 0x300)
    (fun t => (t.readByte 0x300, t.readByte 0x301, t.readByte 0x302, t.I)) = some (1, 5, 6, 0x300) := by decide
/-- V-L12. -/
theorem test_FX33_faults : after ((rom1 0xF033).setI 0xFFE) (fun t => (t.M == (rom1 0xF033).M, t.FAULT)) =
    some (true, some ⟨.addressOutOfRange, 0x200, 0xF033, 0x1000⟩) := by decide
/-- V-L13. -/
theorem test_FX55 : after (((((rom1 0xF255).setV 0 1).setV 1 2).setV 2 3).setI 0x400)
    (fun t => (t.M.readBytes 0x3FF 5, t.I)) = some ([0, 1, 2, 3, 0], 0x400) := by decide
/-- V-L16. -/
theorem test_FX55_faults : after ((rom1 0xFF55).setI 0xFF1) State.FAULT =
    some (some ⟨.addressOutOfRange, 0x200, 0xFF55, 0x1000⟩) := by decide
/-- V-L20: glyph 0 of the font. -/
theorem test_FX65 : after (rom1 0xF465) (fun t => t.V.toList.take 6) = some [0xF0, 0x90, 0x90, 0x90, 0xF0, 0] := by decide
/-- V-L19. -/
theorem test_FX65_faults : after ((rom1 0xFF65).setI 0xFF1) (fun t => (t.V == (rom1 0xFF65).V, t.FAULT.map (·.detail))) =
    some (true, some 0x1000) := by decide

/-! ### Display (section 2.5) -/

/-- V-D1. -/
theorem test_00E0 : after { rom1 0x00E0 with FB := Frame.blank.setPixel 63 31 true } (fun t => rowSet t 31) = some [] := by
  decide +kernel
/-- W3: glyph 0 drawn on a blank screen. -/
theorem test_DXYN : after (rom1 0xD015) (fun t => (rowSet t 0, rowSet t 1, rowSet t 4, rowSet t 5, t.getV 15)) =
    some ([0, 1, 2, 3], [0, 3], [0, 1, 2, 3], [], 0) := by decide +kernel
/-- W4: a full row at column 60 wraps; one pixel was already set. -/
theorem test_DXYN_wraps : after { ((rom1 0xD011).setV 0 60).setI 0x300 with
      M := (rom1 0xD011).M.write 0x300 0xFF, FB := Frame.blank.setPixel 2 0 true }
    (fun t => (rowSet t 0, t.getV 15)) = some ([0, 1, 3, 60, 61, 62, 63], 1) := by decide +kernel

/-! ### Timers and keypad (the examples of R320 to R325) -/

theorem test_EX9E : after (((rom1 0xE29E).setV 2 5).setKEY 5 true) State.pc = some 0x204 := by decide
theorem test_EX9E_faults : after ((rom1 0xE29E).setV 2 0x10) State.FAULT =
    some (some ⟨.keyIndexOutOfRange, 0x200, 0xE29E, 0x10⟩) := by decide
theorem test_EXA1 : after ((rom1 0xE2A1).setV 2 5) State.pc = some 0x204 := by decide
theorem test_EXA1_falls : after (((rom1 0xE2A1).setV 2 5).setKEY 5 true) State.pc = some 0x202 := by decide
theorem test_FX07 : after ((rom1 0xF307).setDT 0x3C) (fun t => (t.getV 3, t.DT)) = some (0x3C, 0x3C) := by decide
/-- W8: the wait, then the key. -/
theorem test_FX0A_waits : after (rom1 0xF30A) (fun t => (t.pc, t == rom1 0xF30A)) = some (0x200, true) := by decide +kernel
theorem test_FX0A_consumes : after ((rom1 0xF30A).keyDown 7) (fun t => (t.getV 3, t.PENDING, t.pc)) =
    some (7, none, 0x202) := by decide
theorem test_FX15 : after ((rom1 0xF115).setV 1 60) State.DT = some 60 := by decide
theorem test_FX18 : after ((rom1 0xF118).setV 1 30) State.ST = some 30 := by decide

/-! ### Witnesses: for every obligation with hypotheses, states and operands that meet them -/

/-- A core about to fetch at the last possible address, with a ROM of the maximum length. -/
def atTop : State := { State.reset with pc := 0xFFE, ROM_END := 0x1000 }

/-- The same one byte further: the fetch would leave memory. -/
def pastTop : State := { State.reset with pc := 0xFFF, ROM_END := 0x1000 }

/-- A halted core: the return with no active call of V-CF8. -/
def haltedCore : State := { rom1 0x00EE with FAULT := some ⟨.stackUnderflow, 0x200, 0x00EE, 0⟩ }

/-- A dump of V0 and V1 onto the next instruction, which they make 00E0. -/
def selfModifying : State := (((rom1 0xF155).setV 0 0x00).setV 1 0xE0).setI 0x202

theorem witness_EncodedInstructionsDecodeToThemselves : (Instr.opDXYN 15 0 15).wf = true ∧ (Instr.opFX65 15).wf = true := by
  decide

theorem witness_RecognizedWordsEncodeBack : decodeWord 0xFF65 = some (.opFX65 15) ∧ decodeWord 0x00E0 = some .op00E0 := by
  decide

theorem witness_DecodingIsMaskAndMatch :
    (⟨0x8004, 0xF00F⟩ : OpcodeRow) ∈ opcodeTable ∧ (0x8124 : Word) &&& 0xF00F = 0x8004 ∧
    ¬((0x8125 : Word) &&& 0xF00F = 0x8004) := by decide

theorem witness_StepRunsTheDecodedInstruction :
    (Instr.opDXYN 0 1 5).wf = true ∧ FetchesWord (rom1 0xD015) (encode (.opDXYN 0 1 5)) ∧
    FetchesWord { atTop with M := (atTop.M.write 0xFFE 0x60).write 0xFFF 0x01 } (encode (.op6XNN 0 1)) := by
  unfold FetchesWord
  decide

theorem witness_StepSkipsAnUnrecognizedWord :
    FetchesWord (rom1 0x0123) 0x0123 ∧ decodeWord 0x0123 = none ∧ FetchesWord atTop 0x0000 ∧ decodeWord 0x0000 = none := by
  unfold FetchesWord
  decide

theorem witness_HaltedStepChangesNothing : haltedCore.FAULT ≠ none := by decide

theorem witness_IdleStepChangesNothing :
    State.reset.FAULT = none ∧ State.reset.pc.toNat ≥ State.reset.ROM_END ∧
    (rom1 0x1200).FAULT = none ∧ ({ rom1 0x1200 with pc := 0x201 } : State).pc.toNat + 1 = (rom1 0x1200).ROM_END := by
  decide

theorem witness_FetchPastMemoryFaults :
    pastTop.FAULT = none ∧ pastTop.pc.toNat < pastTop.ROM_END ∧ pastTop.pc.toNat + 1 > 0xFFF ∧ pastTop.ROM_END ≤ 0x1000 := by
  decide

/-- A fetch past memory, an unrecognized word, an instruction with no fault, and each faulting instruction on either side
of its condition. -/
theorem witness_StepLatchesExactlyTheTabledFault :
    (pastTop.FAULT = none ∧ pastTop.pc.toNat < pastTop.ROM_END ∧ pastTop.pc.toNat + 1 > 0xFFF) ∧
    (atTop.FAULT = none ∧ atTop.pc.toNat < atTop.ROM_END ∧ decodeWord (wordAtPc atTop) = none) ∧
    ((rom1 0x00EE).FAULT = none ∧ (rom1 0x00EE).pc.toNat < (rom1 0x00EE).ROM_END ∧
      decodeWord (wordAtPc (rom1 0x00EE)) = some .op00EE) ∧
    (faultCondition .op00EE { rom1 0x00EE with sp := 1 } = none ∧ faultCondition .op00EE (rom1 0x00EE) ≠ none) ∧
    (faultCondition (.op2NNN 0) { rom1 0x2000 with sp := 14 } = none ∧
      faultCondition (.op2NNN 0) { rom1 0x2000 with sp := 15 } ≠ none) ∧
    (faultCondition (.opDXYN 0 0 15) ((rom1 0xD00F).setI 0xFF1) = none ∧
      faultCondition (.opDXYN 0 0 0) ((rom1 0xD000).setI 0xFFF) = none ∧
      faultCondition (.opDXYN 0 0 2) ((rom1 0xD002).setI 0xFFF) ≠ none) ∧
    (faultCondition (.opEX9E 0) ((rom1 0xE09E).setV 0 15) = none ∧
      faultCondition (.opEX9E 0) ((rom1 0xE09E).setV 0 16) ≠ none) ∧
    (faultCondition (.opEXA1 0) ((rom1 0xE0A1).setV 0 15) = none ∧
      faultCondition (.opEXA1 0) ((rom1 0xE0A1).setV 0 16) ≠ none) ∧
    (faultCondition (.opFX1E 0) (((rom1 0xF01E).setI 0xFFE).setV 0 1) = none ∧
      faultCondition (.opFX1E 0) (((rom1 0xF01E).setI 0xFFF).setV 0 1) ≠ none) ∧
    (faultCondition (.opFX33 0) ((rom1 0xF033).setI 0xFFD) = none ∧
      faultCondition (.opFX33 0) ((rom1 0xF033).setI 0xFFE) ≠ none) ∧
    (faultCondition (.opFX55 15) ((rom1 0xFF55).setI 0xFF0) = none ∧
      faultCondition (.opFX55 15) ((rom1 0xFF55).setI 0xFF1) ≠ none) ∧
    (faultCondition (.opFX65 15) ((rom1 0xFF65).setI 0xFF0) = none ∧
      faultCondition (.opFX65 15) ((rom1 0xFF65).setI 0xFF1) ≠ none) := by decide

theorem witness_FaultsArePrecise :
    (rom1 0x00EE).FAULT = none ∧ step (rom1 0x00EE) = .next haltedCore ∧
    haltedCore.FAULT = some ⟨.stackUnderflow, 0x200, 0x00EE, 0⟩ ∧
    pastTop.FAULT = none ∧ step pastTop = .next { pastTop with FAULT := some ⟨.addressOutOfRange, 0xFFF, 0, 0x1000⟩ } := by
  refine ⟨by decide, rfl, rfl, by decide, rfl⟩

theorem witness_StepReportsWhatItDid :
    (∃ t, FetchesWord (rom1 0x0123) 0x0123 ∧ step (rom1 0x0123) = .next t ∧ t.FAULT = none) ∧
    (∃ t, FetchesWord (rom1 0xF30A) 0xF30A ∧ step (rom1 0xF30A) = .next t ∧ t.FAULT = none) ∧
    (∃ t, FetchesWord ((rom1 0xF30A).keyDown 7) 0xF30A ∧ step ((rom1 0xF30A).keyDown 7) = .next t ∧ t.FAULT = none) ∧
    (∃ t, FetchesWord (rom1 0x6A2B) 0x6A2B ∧ step (rom1 0x6A2B) = .next t ∧ t.FAULT = none) := by
  unfold FetchesWord
  exact ⟨⟨_, by decide, rfl, rfl⟩, ⟨_, by decide, rfl, rfl⟩, ⟨_, by decide, rfl, rfl⟩, ⟨_, by decide, rfl, rfl⟩⟩

/-- The invariant holds in a halted core, so its clause on the fault latch is met by a latched fault. -/
theorem haltedCore_inv : haltedCore.Inv where
  memory := by decide
  index := by decide
  counter := by decide
  rom := by decide
  slotZero := by decide
  slots := by decide
  fault := by
    intro r hr
    cases hr
    exact ⟨rfl, rfl, rfl⟩

/-- And in a core that can still step. -/
theorem rom1_inv : (rom1 0x2300).Inv where
  memory := by decide
  index := by decide
  counter := by decide
  rom := by decide
  slotZero := by decide
  slots := by decide
  fault := by
    intro r hr
    cases hr

theorem witness_StepKeepsTheInvariant :
    (∃ t, (rom1 0x2300).Inv ∧ step (rom1 0x2300) = .next t) ∧ ∃ t, haltedCore.Inv ∧ step haltedCore = .next t :=
  ⟨⟨_, rom1_inv, rfl⟩, ⟨_, haltedCore_inv, rfl⟩⟩

theorem witness_LoadedStateHasTheInvariant :
    hostReset .fromVy defaultFont (some [0x12, 0x00]) = .next (State.load .fromVy defaultFont [0x12, 0x00]) := by rfl

theorem witness_HostOperationsKeepTheInvariant : haltedCore.Inv ∧ (rom1 0x2300).Inv := ⟨haltedCore_inv, rom1_inv⟩

/-- A reachable state, and one a transaction later. -/
theorem witness_ReachableStatesStayInBounds :
    Reachable (State.load .inPlace defaultFont [0x12, 0x00]) ∧
    Reachable ((State.load .inPlace defaultFont [0x12, 0x00]).keyDown 7) :=
  have h : Reachable (State.load .inPlace defaultFont [0x12, 0x00]) :=
    .reset .inPlace defaultFont (some [0x12, 0x00]) _ rfl
  ⟨h, .transaction (.host (.keyDown 7)) _ _ h rfl⟩

/-- An idle core and a halted core have ended. -/
theorem witness_EndedRunsStayEnded : State.reset.ended = true ∧ haltedCore.ended = true := by decide

theorem witness_ConstantsAndKeypadAreNotWritten :
    (∃ t, applyTransaction .step (rom1 0xC30F) = .next t) ∧
    (∃ t, applyTransaction (.host (.keyDown 7)) haltedCore = .next t) ∧ ∃ t, step (rom1 0xC30F) = .next t :=
  ⟨⟨_, rfl⟩, ⟨_, rfl⟩, ⟨_, rfl⟩⟩

/-- For each clause, an instruction that does write the piece of state. -/
theorem witness_OnlyTheNamedInstructionsWrite :
    (∃ t, exec (.opANNN 0x2F0) State.reset = .next t ∧ t.I ≠ State.reset.I) ∧
    (∃ t, exec (.op2NNN 0x300) State.reset = .next t ∧ t.sp ≠ State.reset.sp ∧ t.S ≠ State.reset.S) ∧
    (∃ t, exec (.opFX15 1) (State.reset.setV 1 60) = .next t ∧ t.DT ≠ (State.reset.setV 1 60).DT) ∧
    (∃ t, exec (.opFX18 1) (State.reset.setV 1 30) = .next t ∧ t.ST ≠ (State.reset.setV 1 30).ST) ∧
    (∃ t, exec (.opFX0A 3) (State.reset.keyDown 7) = .next t ∧ t.PENDING ≠ (State.reset.keyDown 7).PENDING) ∧
    (∃ t, exec (.opDXYN 0 1 1) State.reset = .next t ∧ t.FB.pixel 0 0 ≠ State.reset.FB.pixel 0 0) ∧
    (∃ t, exec (.opFX33 1) ((State.reset.setV 1 9).setI 0x300) = .next t ∧ t.M ≠ ((State.reset.setV 1 9).setI 0x300).M) := by
  refine ⟨⟨_, rfl, ?_⟩, ⟨_, rfl, ?_, ?_⟩, ⟨_, rfl, ?_⟩, ⟨_, rfl, ?_⟩, ⟨_, rfl, ?_⟩, ⟨_, rfl, ?_⟩, ⟨_, rfl, ?_⟩⟩ <;>
    decide +kernel

/-- A destination, a flag, and a flag instruction whose destination is not VF, with no fault before or after. -/
theorem witness_RegistersChangeOnlyWhereNamed :
    (∃ t, exec (.op8XY4 1 2) ((State.reset.setV 1 250).setV 2 10) = .next t ∧
      t.getV 1 ≠ ((State.reset.setV 1 250).setV 2 10).getV 1 ∧ t.getV vF ≠ ((State.reset.setV 1 250).setV 2 10).getV vF ∧
      writesFlag (.op8XY4 1 2) = true ∧ namesDestination (.op8XY4 1 2) vF = false ∧ t.FAULT = none) := by
  refine ⟨_, rfl, ?_, ?_, ?_, ?_, rfl⟩ <;> decide

/-- A destination that is not VF, a further register that is neither, and both settings of the shift source. -/
theorem witness_flag_hypotheses :
    (1 : Reg) ≠ vF ∧ (2 : Reg) ≠ 1 ∧ (2 : Reg) ≠ vF ∧ (rom1 0x8126).SHIFT_QUIRK = .inPlace ∧
    (quirky (rom1 0x8126)).SHIFT_QUIRK = .fromVy := by decide

theorem witness_RandomResultStaysInTheMask :
    State.reset.rndSupply = [] ∧ (0x07 : Byte) &&& ~~~0x0F = 0 ∧ (0x00 : Byte) &&& ~~~0x00 = 0 := by decide

theorem witness_EverySuppliedByteIsDrawnOnce : (rom1 0xC3FF).rndSupply = [] := by decide

theorem witness_CallPushesAndJumps :
    ({ State.reset with sp := 14 } : State).sp.val < 15 ∧ ({ State.reset with sp := 15 } : State).sp.val = 15 := by decide

theorem witness_ReturnPopsTheCaller :
    0 < ({ State.reset with sp := 1 } : State).sp.val ∧ State.reset.sp.val = 0 := by decide

theorem witness_ReturnUndoesCall : ({ State.reset with sp := 14 } : State).sp.val < 15 := by decide

theorem witness_AddToIndexOrFault :
    ((State.reset.setI 0xFFE).setV 1 1).I.toNat + (((State.reset.setI 0xFFE).setV 1 1).getV 1).toNat ≤ 0xFFF ∧
    ((State.reset.setI 0xFFF).setV 1 1).I.toNat + (((State.reset.setI 0xFFF).setV 1 1).getV 1).toNat > 0xFFF := by decide

theorem witness_BcdStoresThreeDigits :
    (State.reset.setI 0xFFD).M.wf ∧ (State.reset.setI 0xFFD).I.toNat + 2 ≤ 0xFFF ∧
    (State.reset.setI 0xFFE).M.wf ∧ (State.reset.setI 0xFFE).I.toNat + 2 > 0xFFF := by decide

/-- The dump, the load, and the load after the dump. -/
theorem witness_RegisterDumpStoresV0ToVx :
    (State.reset.setI 0xFF0).M.wf ∧ (State.reset.setI 0xFF0).I.toNat + (15 : Reg).val ≤ 0xFFF ∧
    (State.reset.setI 0xFF1).M.wf ∧ (State.reset.setI 0xFF1).I.toNat + (15 : Reg).val > 0xFFF := by decide

theorem witness_RegisterLoadReadsV0ToVx :
    (State.reset.setI 0xFFF).I.toNat + (0 : Reg).val ≤ 0xFFF ∧ (State.reset.setI 0xFFF).I.toNat + (1 : Reg).val > 0xFFF := by
  decide

theorem witness_LoadAfterDumpRestoresRegisters :
    (State.reset.setI 0xFF0).M.wf ∧ (State.reset.setI 0xFF0).I.toNat + (15 : Reg).val ≤ 0xFFF := by decide

theorem witness_StoredCodeRunsAtTheNextStep :
    let s : State := { selfModifying.advance with ROM_END := 0x204 }
    ∃ t, s.M.wf ∧ Instr.op00E0.wf = true ∧ 1 ≤ (1 : Reg).val ∧ s.FAULT = none ∧ s.pc.toNat < s.ROM_END ∧ s.I = s.pc ∧
      s.I.toNat + (1 : Reg).val ≤ 0xFFF ∧ wordOfBytes (s.getV 0) (s.getV 1) = encode .op00E0 ∧
      exec (.opFX55 1) s = .next t := by
  refine ⟨_, ?_, ?_, ?_, ?_, ?_, ?_, ?_, ?_, rfl⟩ <;> decide

/-- No row, all rows up to the last byte, a row past it; a sprite bit on a blank pixel and one on a set pixel. -/
theorem witness_DrawXorsTheSpriteAndReportsCollision :
    ((0 : Nat) ≤ 15 ∧ ((0 : Nat) = 0 ∨ (State.reset.setI 0xFFF).I.toNat + 0 - 1 ≤ 0xFFF)) ∧
    ((15 : Nat) ≤ 15 ∧ (State.reset.setI 0xFF1).I.toNat + 15 - 1 ≤ 0xFFF) ∧
    (1 ≤ 2 ∧ (State.reset.setI 0xFFF).I.toNat + 2 - 1 > 0xFFF) ∧
    (SpriteBitOn State.reset 0 1 5 0 0 ∧ ({ State.reset with FB := Frame.blank.setPixel 0 0 true } : State).FB.pixel 0 0 = true) ∧
    (∀ p q, State.reset.FB.pixel p q = false) ∧ (0 : Reg) ≠ vF := by
  refine ⟨by decide, by decide, by decide, ⟨⟨0, 0, by decide⟩, by decide +kernel⟩, fun p q => Frame.pixel_blank p q, by decide⟩

theorem witness_DrawingTwiceRestoresTheScreen :
    (5 : Nat) ≤ 15 ∧ (0 : Reg) ≠ vF ∧ (1 : Reg) ≠ vF ∧ State.reset.I.toNat + 5 - 1 ≤ 0xFFF := by decide

theorem witness_KeySkipsReadTheKeyLevel :
    ((State.reset.setV 2 15).getV 2).toNat = (15 : Key).val ∧ ((State.reset.setV 2 16).getV 2).toNat > 0xF := by decide

theorem witness_KeyWaitConsumesThePendingKey :
    (State.reset.keyDown 15).PENDING = some 15 ∧ (rom1 0xF30A).PENDING = none ∧
    FetchesWord (rom1 0xF30A) (encode (.opFX0A 3)) ∧ (0 : Reg) ≠ 3 := by
  unfold FetchesWord
  decide

/-- A waiting core, and a run with a step and every host operation but a key-down. -/
theorem witness_KeyWaitNeedsAKeyDown :
    FetchesWord (rom1 0xF30A) (encode (.opFX0A 3)) ∧ (rom1 0xF30A).PENDING = none ∧
    (∀ e ∈ [Transaction.host .delayTick, .step, .host .soundTick, .host (.keyUp 7), .host (.supplyRandom 0xA7)],
      isKeyDown e = false) ∧ isKeyDown (.host (.keyDown 7)) = true ∧ (0 : Reg) ≠ 3 := by
  unfold FetchesWord
  decide

/-- A halted core, an idle one and a running one. -/
theorem witness_HostReads :
    haltedCore.FAULT = some ⟨.stackUnderflow, 0x200, 0x00EE, 0⟩ ∧
    (State.reset.FAULT = none ∧ State.reset.pc.toNat ≥ State.reset.ROM_END) ∧
    ((rom1 0x1200).FAULT = none ∧ (rom1 0x1200).pc.toNat < (rom1 0x1200).ROM_END) := by decide

theorem witness_ResetPlacesFontAndRom :
    1 ≤ [(0x12 : Byte)].length ∧ [(0x12 : Byte)].length ≤ 3584 ∧
    1 ≤ (List.replicate 3584 (0x12 : Byte)).length ∧ (List.replicate 3584 (0x12 : Byte)).length ≤ 3584 := by
  simp only [List.length_replicate]
  decide

theorem witness_ResetRefusesABadRom :
    ([] : List Byte).length = 0 ∧ (List.replicate 3585 (0x12 : Byte)).length > 3584 := by
  simp only [List.length_replicate]
  decide

end Sys2Proof.Tests
end

section
/-! SUPPORT. What an executed instruction can do to the state, said once for all 34 of them, with the operands and guards
that the whole-machine rules of 10_state.md need. -/

namespace Sys2Proof.Machine

open Sys2Proof.Claims

/-- The kinds of state change an instruction can make: which named operation it applies, and under which guard. A
constructor that fixes its instruction is the only way to write that piece of state. -/
inductive Effect : Instr → State → State → Prop
  /-- The fault of the table of R350 to R353 (R139). -/
  | fault {i s kind detail} (hc : faultCondition i s = some (kind, detail)) : Effect i s (s.raiseIn i kind detail)
  /-- A destination register, no flag. -/
  | writeV {i s x} (b : Byte) (hd : namesDestination i x = true) (hf : writesFlag i = false) : Effect i s (s.setV x b)
  /-- The flag and then a destination register (R32, R138). -/
  | writeFlagAndV {i s x} (c : Bool) (b : Byte) (hd : namesDestination i x = true) (hf : writesFlag i = true) :
      Effect i s (s.setFlagThenV x (flagByte c) b)
  | random {s} (x : Reg) (nn b : Byte) : Effect (.opCXNN x nn) s (s.consumeDraw.setV x b)
  | load {s} (x : Reg) (f : Nat → Byte) : Effect (.opFX65 x) s (s.loadV x f)
  | skip {i s} (c : Bool) (hf : writesFlag i = false) : Effect i s (s.skipIf c)
  | jump {i s v} (hv : v.toNat ≤ 0x10FE) (hf : writesFlag i = false) : Effect i s (s.setPc v)
  | call {s} (nnn : Addr12) (h : s.sp.val < 15) : Effect (.op2NNN nnn) s ((s.push s.pc).setPc (zext16 nnn))
  | ret {s} (h : 0 < s.sp.val) : Effect .op00EE s (s.pop.setPc s.stackTop)
  /-- FX0A with no pending key is rewound (R323). -/
  | wait {s} (x : Reg) : Effect (.opFX0A x) s (s.setPc (s.pc - 2))
  | takeKey {s} (x : Reg) (b : Byte) : Effect (.opFX0A x) s ((s.setV x b).setPENDING none)
  | loadIndex {s} (nnn : Addr12) : Effect (.opANNN nnn) s (s.setI (zext16 nnn))
  | addIndex {s x} (h : s.indexSum x ≤ 0xFFF) : Effect (.opFX1E x) s (s.setI (BitVec.ofNat 16 (s.indexSum x)))
  | glyphIndex {s} (x : Reg) (b : Byte) : Effect (.opFX29 x) s (s.setI (glyphAddr b))
  | storeDigits {s} (x : Reg) {bytes : List Byte} (h : s.I.toNat + bytes.length ≤ Config.memSize) :
      Effect (.opFX33 x) s (s.storeBytes s.I.toNat bytes)
  | dump {s} (x : Reg) {bytes : List Byte} (h : s.I.toNat + bytes.length ≤ Config.memSize) :
      Effect (.opFX55 x) s (s.storeBytes s.I.toNat bytes)
  | clear {s} : Effect .op00E0 s (s.setFB Frame.blank)
  | draw {s} (x y : Reg) (n : Nat) (f : Frame) (c : Bool) :
      Effect (.opDXYN x y n) s ((s.setFB f).setV vF (flagByte c))
  | writeDT {s} (x : Reg) (b : Byte) : Effect (.opFX15 x) s (s.setDT b)
  | writeST {s} (x : Reg) (b : Byte) : Effect (.opFX18 x) s (s.setST b)

/-- A key skip faults on a register that names no key and is a skip otherwise (R320, R321, R353). -/
theorem effect_skipIfKey {i : Instr} {x : Reg} (s : State) (level : Bool) (hf : writesFlag i = false)
    (hc : 0xF < (s.getV x).toNat → faultCondition i s = some (.keyIndexOutOfRange, zext16Byte (s.getV x))) :
    Effect i s (s.skipIfKey i x level) := by
  by_cases h : 0xF < (s.getV x).toNat
  · exact skipIfKey_invalid h i level ▸ .fault (hc h)
  · exact skipIfKey_valid (k := ⟨(s.getV x).toNat, by omega⟩) rfl i level ▸ .skip _ hf

/-- Every instruction answers a next state and changes the one it runs at in one of these ways (R137). -/
theorem exec_effect (i : Instr) (s : State) : ∃ t, exec i s = .next t ∧ Effect i s t := by
  cases i with
  | op00E0 => exact ⟨_, rfl, .clear⟩
  | op00EE =>
    by_cases h : s.sp.val = 0
    · exact ⟨_, exec_return_empty h, .fault (if_pos (Fin.ext h))⟩
    · exact ⟨_, exec_return (Nat.pos_of_ne_zero h), .ret (Nat.pos_of_ne_zero h)⟩
  | op1NNN nnn => exact ⟨_, rfl, .jump (by rw [toNat_zext16]; omega) rfl⟩
  | op2NNN nnn =>
    by_cases h : s.sp.val = 15
    · exact ⟨_, exec_call_full nnn h, .fault (if_pos (Fin.ext h))⟩
    · exact ⟨_, exec_call nnn (by omega), .call nnn (by omega)⟩
  | op3XNN x nn => exact ⟨_, rfl, .skip _ rfl⟩
  | op4XNN x nn => exact ⟨_, rfl, .skip _ rfl⟩
  | op5XY0 x y => exact ⟨_, rfl, .skip _ rfl⟩
  | op6XNN x nn => exact ⟨_, rfl, .writeV _ (decide_eq_true rfl) rfl⟩
  | op7XNN x nn => exact ⟨_, rfl, .writeV _ (decide_eq_true rfl) rfl⟩
  | op8XY0 x y => exact ⟨_, rfl, .writeV _ (decide_eq_true rfl) rfl⟩
  | op8XY1 x y => exact ⟨_, rfl, .writeV _ (decide_eq_true rfl) rfl⟩
  | op8XY2 x y => exact ⟨_, rfl, .writeV _ (decide_eq_true rfl) rfl⟩
  | op8XY3 x y => exact ⟨_, rfl, .writeV _ (decide_eq_true rfl) rfl⟩
  | op8XY4 x y => exact ⟨_, rfl, .writeFlagAndV _ _ (decide_eq_true rfl) rfl⟩
  | op8XY5 x y => exact ⟨_, rfl, .writeFlagAndV _ _ (decide_eq_true rfl) rfl⟩
  | op8XY6 x y => exact ⟨_, rfl, .writeFlagAndV _ _ (decide_eq_true rfl) rfl⟩
  | op8XY7 x y => exact ⟨_, rfl, .writeFlagAndV _ _ (decide_eq_true rfl) rfl⟩
  | op8XYE x y => exact ⟨_, rfl, .writeFlagAndV _ _ (decide_eq_true rfl) rfl⟩
  | op9XY0 x y => exact ⟨_, rfl, .skip _ rfl⟩
  | opANNN nnn => exact ⟨_, rfl, .loadIndex nnn⟩
  | opBNNN nnn => exact ⟨_, rfl, .jump (by rw [toNat_offsetTarget]; omega) rfl⟩
  | opCXNN x nn => exact ⟨_, rfl, .random x nn _⟩
  | opDXYN x y n =>
    by_cases h : 1 ≤ n ∧ 0xFFF < s.I.toNat + n - 1
    · exact ⟨_, exec_draw_out h.1 h.2, .fault (if_pos h)⟩
    · exact ⟨_, exec_draw (by omega), .draw x y n _ _⟩
  | opEX9E x => exact ⟨_, rfl, effect_skipIfKey s true rfl fun h => if_pos h⟩
  | opEXA1 x => exact ⟨_, rfl, effect_skipIfKey s false rfl fun h => if_pos h⟩
  | opFX07 x => exact ⟨_, rfl, .writeV _ (decide_eq_true rfl) rfl⟩
  | opFX0A x =>
    rcases h : s.PENDING with _ | k
    · exact ⟨_, exec_keyWait_none x h, .wait x⟩
    · exact ⟨_, exec_keyWait x h, .takeKey x _⟩
  | opFX15 x => exact ⟨_, rfl, .writeDT x _⟩
  | opFX18 x => exact ⟨_, rfl, .writeST x _⟩
  | opFX1E x =>
    by_cases h : 0xFFF < s.I.toNat + (s.getV x).toNat
    · exact ⟨_, exec_addIndex_out h, .fault (if_pos h)⟩
    · exact ⟨_, exec_addIndex (by omega), .addIndex (Nat.le_of_not_lt h)⟩
  | opFX29 x => exact ⟨_, rfl, .glyphIndex x _⟩
  | opFX33 x =>
    by_cases h : 0xFFF < s.I.toNat + 2
    · exact ⟨_, exec_bcd_out h, .fault (if_pos h)⟩
    · exact ⟨_, exec_bcd (by omega), .storeDigits x (by simp only [length_bcdDigits, Config.memSize]; omega)⟩
  | opFX55 x =>
    by_cases h : 0xFFF < s.I.toNat + x.val
    · exact ⟨_, exec_dump_out h, .fault (if_pos h)⟩
    · exact ⟨_, exec_dump (by omega), .dump x (by simp only [State.length_dumpV, Config.memSize]; omega)⟩
  | opFX65 x =>
    by_cases h : 0xFFF < s.I.toNat + x.val
    · exact ⟨_, exec_load_out h, .fault (if_pos h)⟩
    · exact ⟨_, exec_load (by omega), .load x _⟩

/-- The inversion of an executed instruction. -/
theorem Effect.of_exec {i : Instr} {s t : State} (h : exec i s = .next t) : Effect i s t := by
  obtain ⟨u, hu, he⟩ := exec_effect i s
  rw [h] at hu
  cases hu
  exact he

end Sys2Proof.Machine
end

section
/-! SUPPORT. Which instructions write which piece of state (spec 10_state.md sections 1 and 4 to 10). -/

namespace Sys2Proof.Machine

open Sys2Proof.Claims

/-- Settles O23: for each piece of state, the effects that write it fix their instruction, and every other leaves it. -/
theorem onlyTheNamedInstructionsWrite : Obligations.OnlyTheNamedInstructionsWrite := by
  intro i s t h
  have he := Effect.of_exec h
  refine ⟨fun hI => ?_, fun hsp => ?_, fun hS => ?_, fun hDT => ?_, fun hST => ?_, fun hP => ?_, fun hFB => ?_,
    fun hM => ?_⟩
  · cases he with
    | loadIndex | addIndex | glyphIndex => simp
    | _ => simp at hI
  · cases he with
    | call | ret => simp
    | _ => simp at hsp
  · cases he with
    | call => simp
    | _ => simp at hS
  · cases he with
    | writeDT => simp
    | _ => simp at hDT
  · cases he with
    | writeST => simp
    | _ => simp at hST
  · cases he with
    | takeKey => simp
    | _ => simp at hP
  · cases he with
    | clear | draw => simp
    | _ => simp at hFB
  · cases he with
    | storeDigits | dump => simp
    | _ => simp at hM

/-- The register whose value a write changes is the one written; `u` differs from `s` outside the registers only. -/
theorem State.eq_of_getV_setV_ne {s u : State} {x k : Reg} {b : Byte} (hV : u.V = s.V)
    (hk : (u.setV x b).getV k ≠ s.getV k) : k = x := by
  by_contra hx
  exact hk (by rw [State.getV_setV, if_neg hx, State.getV, State.getV, hV])

/-- A register that an instruction changes is its destination, or VF where it writes the flag (R30, R31). -/
theorem Effect.register_named {i : Instr} {s t : State} (he : Effect i s t) {k : Reg} (hk : t.getV k ≠ s.getV k) :
    namesDestination i k = true ∨ (k = vF ∧ writesFlag i = true) := by
  cases he with
  | writeV b hd => exact .inl (State.eq_of_getV_setV_ne rfl hk ▸ hd)
  | @writeFlagAndV _ _ x c b hd hf =>
    by_cases hx : k = x
    · exact .inl (hx ▸ hd)
    · rw [State.getV_setFlagThenV, if_neg hx] at hk
      exact .inr ⟨by_contra fun hv => hk (if_neg hv), hf⟩
  | random x => exact .inl (decide_eq_true (State.eq_of_getV_setV_ne s.V_consumeDraw hk))
  | takeKey x => exact .inl (decide_eq_true (State.eq_of_getV_setV_ne rfl hk))
  | load x =>
    rw [State.getV_loadV] at hk
    exact .inl (decide_eq_true (by_contra fun hx => hk (if_neg hx)))
  | draw => exact .inr ⟨State.eq_of_getV_setV_ne (u := s.setFB _) rfl hk, rfl⟩
  | _ => simp [State.getV] at hk

/-- An instruction that writes the flag, has another destination and latches no fault leaves a flag in VF (R31, R35). -/
theorem Effect.flag_in_VF {i : Instr} {s t : State} (he : Effect i s t) (hf : writesFlag i = true)
    (hd : namesDestination i vF = false) (hF : t.FAULT = none) : ∃ c, t.getV vF = flagByte c := by
  cases he with
  | fault => simp at hF
  | @writeFlagAndV _ _ x c b hx =>
    have hne : vF ≠ x := fun e => by simp [e, hx] at hd
    exact ⟨c, by rw [State.getV_setFlagThenV, if_neg hne, if_pos rfl]⟩
  | draw x y n f c => exact ⟨c, by rw [State.getV_setV, if_pos rfl]⟩
  | writeV _ _ h | skip _ h | jump _ h => simp [h] at hf
  | _ => simp [writesFlag] at hf

/-- Settles O24: the registers an instruction writes are named, and what it writes as the flag is a flag. -/
theorem registersChangeOnlyWhereNamed : Obligations.RegistersChangeOnlyWhereNamed := by
  intro i s t h
  have he := Effect.of_exec h
  refine ⟨fun k hk => he.register_named hk, fun hf hd _ hF => ?_⟩
  obtain ⟨c, hc⟩ := he.flag_in_VF hf hd hF
  exact hc ▸ flagByte_eq_zero_or_one c

@[simp] theorem Memory.font_writeBytes (m : Memory) (a : Nat) (bytes : List Byte) :
    (m.writeBytes a bytes).font = m.font := by
  induction bytes generalizing m a with
  | nil => rfl
  | cons b rest ih => exact ih (m.write a b) (a + 1)

/-- ROM_END and the parameters are as before (R15, R16, R46). -/
def SameConstants (s t : State) : Prop :=
  t.ROM_END = s.ROM_END ∧ t.SHIFT_QUIRK = s.SHIFT_QUIRK ∧ t.M.font = s.M.font

/-- The keypad is as before, and at most the oldest byte of the random supply is consumed (R41, R368). -/
def DrawsAtMostOne (s t : State) : Prop :=
  t.KEY = s.KEY ∧ (t.rndSupply = s.rndSupply ∨ t.rndSupply = s.rndSupply.tail)

theorem Effect.sameConstants {i : Instr} {s t : State} (he : Effect i s t) : SameConstants s t := by
  cases he with
  | _ => simp [SameConstants]

theorem Effect.drawsAtMostOne {i : Instr} {s t : State} (he : Effect i s t) : DrawsAtMostOne s t := by
  cases he with
  | random => exact ⟨s.KEY_consumeDraw, .inr s.rndSupply_consumeDraw⟩
  | _ => simp [DrawsAtMostOne]

/-- A rule that relates every state to itself, to its fetch fault and to its advance, and that every instruction's effect
keeps, relates each state to the one its step leaves (R130 to R142). -/
theorem step_related {R : State → State → Prop} (same : ∀ s, R s s) (fetchFault : ∀ s, R s s.raiseFetch)
    (skipped : ∀ s, R s s.advance) (executed : ∀ {i s t}, Effect i s.advance t → R s t) {s t : State}
    (h : step s = .next t) : R s t := by
  obtain ⟨-, rfl⟩ | ⟨-, -, rfl⟩ | ⟨-, -, -, rfl⟩ | ⟨-, -, rfl⟩ | ⟨-, i, -, hi⟩ := step_cases h
  · exact same _
  · exact same _
  · exact fetchFault s
  · exact skipped s
  · exact executed (Effect.of_exec hi)

theorem applyHostOp_sameConstants (op : HostOp) (s : State) : SameConstants s (applyHostOp op s) := by
  rw [applyHostOp_frame op s]
  exact ⟨rfl, rfl, rfl⟩

/-- Settles O22: neither an effect nor a host operation writes a constant, and no effect writes the keypad. -/
theorem constantsAndKeypadAreNotWritten : Obligations.ConstantsAndKeypadAreNotWritten := by
  refine ⟨fun e s t h => ?_, fun s t h => ?_⟩
  · cases e with
    | step =>
      exact step_related (R := SameConstants) (fun _ => ⟨rfl, rfl, rfl⟩) (fun _ => ⟨rfl, rfl, rfl⟩)
        (fun _ => ⟨rfl, rfl, rfl⟩) (fun he => he.sameConstants) h
    | host op =>
      cases h
      exact applyHostOp_sameConstants op s
  · exact step_related (R := DrawsAtMostOne) (fun _ => ⟨rfl, .inl rfl⟩) (fun _ => ⟨rfl, .inl rfl⟩)
      (fun _ => ⟨rfl, .inl rfl⟩) (fun he => he.drawsAtMostOne) h

end Sys2Proof.Machine
end

section
/-! SUPPORT. The invariant of the machine: each operation keeps it under its guard, so every step does (spec 10_state.md
R34 to R47, 20_memory.md R70, R71). -/

namespace Sys2Proof.Machine

open Sys2Proof.Claims

/-- The invariant says nothing about the registers, timers, keypad, pending key, framebuffer, shift quirk and draws. -/
theorem State.Inv.update {s : State} (h : s.Inv) {V DT ST KEY PENDING FB SHIFT_QUIRK rndSupply rndCount} :
    ({ s with V := V, DT := DT, ST := ST, KEY := KEY, PENDING := PENDING, FB := FB, SHIFT_QUIRK := SHIFT_QUIRK,
              rndSupply := rndSupply, rndCount := rndCount } : State).Inv :=
  ⟨h.memory, h.index, h.counter, h.rom, h.slotZero, h.slots, h.fault⟩

theorem State.Inv.consumeDraw {s : State} (h : s.Inv) : s.consumeDraw.Inv := by
  unfold State.consumeDraw
  split <;> exact h.update

theorem State.Inv.applyHostOp {s : State} (h : s.Inv) (op : HostOp) : (applyHostOp op s).Inv := by
  rw [applyHostOp_frame op s]
  exact h.update

/-- Writing pc keeps the invariant while no fault is latched, up to the highest target of BNNN (R34). -/
theorem State.Inv.setPc {s : State} (h : s.Inv) (hF : s.FAULT = none) {v : Word} (hv : v.toNat ≤ 0x10FE) :
    (s.setPc v).Inv :=
  ⟨h.memory, h.index, hv, h.rom, h.slotZero, h.slots, fun r hr => by simp [hF] at hr⟩

theorem State.Inv.setI {s : State} (h : s.Inv) {v : Word} (hv : v.toNat ≤ 0xFFF) : (s.setI v).Inv :=
  ⟨h.memory, hv, h.counter, h.rom, h.slotZero, h.slots, h.fault⟩

theorem State.Inv.storeBytes {s : State} (h : s.Inv) {a : Nat} {bytes : List Byte}
    (ha : a + bytes.length ≤ Config.memSize) : (s.storeBytes a bytes).Inv :=
  ⟨s.M.wf_writeBytes a bytes h.memory ha, h.index, h.counter, h.rom, h.slotZero, h.slots, h.fault⟩

/-- A fault that fits its kind keeps the invariant: it stands at the instruction it sends pc back to (R47, R139). -/
theorem State.Inv.raise {s : State} (h : s.Inv) {A w : Word} {kind : FaultKind} {detail : Word} (hA : A.toNat ≤ 0x10FE)
    (hc : FaultRecord.consistent ⟨kind, A, w, detail⟩ s) : (s.raise A w kind detail).Inv := by
  refine ⟨h.memory, h.index, hA, h.rom, h.slotZero, h.slots, fun r hr => ?_⟩
  cases hr
  exact ⟨rfl, hc⟩

/-- A push below the top keeps the invariant: it stores a return address, and never in slot 0 (R37, R162). -/
theorem State.Inv.push {s : State} (h : s.Inv) (hF : s.FAULT = none) (hsp : s.sp.val < 15) {v : Word}
    (hv : v.toNat ≤ 0x1000) : (s.push v).Inv where
  memory := h.memory
  index := h.index
  counter := h.counter
  rom := h.rom
  slotZero := by
    rw [slot_push hsp, if_neg (show (0 : Fin 16).val ≠ s.sp.val + 1 by simp)]
    exact h.slotZero
  slots k := by
    rw [slot_push hsp]
    split
    · exact hv
    · exact h.slots k
  fault r hr := by simp [hF] at hr

theorem State.Inv.pop {s : State} (h : s.Inv) (hF : s.FAULT = none) : s.pop.Inv :=
  ⟨h.memory, h.index, h.counter, h.rom, h.slotZero, h.slots, fun r hr => by simp [hF] at hr⟩

/-- Where the table of R350 to R353 gives a fault, its detail is one that its kind can have (R47). -/
theorem faultCondition_consistent {i : Instr} {s : State} {kind : FaultKind} {detail : Word} (A w : Word)
    (hI : s.I.toNat ≤ 0xFFF) (hc : faultCondition i s = some (kind, detail)) :
    FaultRecord.consistent ⟨kind, A, w, detail⟩ s := by
  cases i <;> simp only [faultCondition, Option.ite_none_right_eq_some, Option.some.injEq, Prod.mk.injEq,
    reduceCtorEq] at hc
  case op00EE | op2NNN =>
    obtain ⟨hsp, rfl, rfl⟩ := hc
    exact ⟨rfl, hsp⟩
  case opDXYN | opFX33 | opFX55 | opFX65 =>
    obtain ⟨-, rfl, rfl⟩ := hc
    simp [FaultRecord.consistent]
  case opEX9E x | opEXA1 x =>
    obtain ⟨hx, rfl, rfl⟩ := hc
    simp only [FaultRecord.consistent, BitVec.toNat_setWidth]
    omega
  case opFX1E x =>
    obtain ⟨hx, rfl, rfl⟩ := hc
    simp only [FaultRecord.consistent, BitVec.toNat_ofNat]
    omega

/-- The state an instruction executes at: the invariant holds, no fault is latched, and pc stands just past the
instruction, which lies inside memory (R132, R134). -/
structure State.Running (s : State) : Prop where
  inv : s.Inv
  notHalted : s.FAULT = none
  afterFetch : 2 ≤ s.pc.toNat
  inMemory : s.pc.toNat ≤ 0x1000

theorem State.Fetches.running {s : State} (hf : s.Fetches) (h : s.Inv) : s.advance.Running := by
  have hpc := hf.inMemory
  have hadv : (s.pc + 2).toNat = s.pc.toNat + 2 := by simp [BitVec.toNat_add]; omega
  exact ⟨h.setPc hf.notHalted (by omega), hf.notHalted, by simp; omega, by simp; omega⟩

/-- Every instruction keeps the invariant. -/
theorem Effect.keeps_inv {i : Instr} {s t : State} (he : Effect i s t) (hs : s.Running) : t.Inv := by
  obtain ⟨h, hF, hlo, hhi⟩ := hs
  have hback : (s.pc - 2).toNat ≤ 0x10FE := by bv_omega
  have hskip : (s.pc + 2).toNat ≤ 0x10FE := by bv_omega
  cases he with
  | fault hc => exact h.raise hback (faultCondition_consistent _ _ h.index hc)
  | writeV | writeFlagAndV | load | takeKey | clear | draw | writeDT | writeST => exact h.update
  | random => exact h.consumeDraw.update
  | skip c =>
    cases c
    · exact h
    · exact h.setPc hF hskip
  | jump hv => exact h.setPc hF hv
  | call nnn hsp => exact (h.push hF hsp hhi).setPc hF (by rw [toNat_zext16]; omega)
  | ret => exact (h.pop hF).setPc hF (Nat.le_trans (h.slots s.sp) (by decide))
  | wait => exact h.setPc hF hback
  | loadIndex nnn => exact h.setI (by rw [toNat_zext16]; omega)
  | addIndex hsum => exact h.setI (by rw [BitVec.toNat_ofNat]; omega)
  | glyphIndex x b => exact h.setI (by rw [toNat_glyphAddr]; omega)
  | storeDigits x hb | dump x hb => exact h.storeBytes hb

theorem step_keeps_inv {s t : State} (h : s.Inv) (hstep : step s = .next t) : t.Inv := by
  obtain ⟨-, rfl⟩ | ⟨-, -, rfl⟩ | ⟨-, -, -, rfl⟩ | ⟨hf, -, rfl⟩ | ⟨hf, i, -, hi⟩ := step_cases hstep
  · exact h
  · exact h
  · exact h.raise h.counter (by simp [FaultRecord.consistent])
  · exact (hf.running h).inv
  · exact (Effect.of_exec hi).keeps_inv (hf.running h)

/-- Settles O16: a step is one of five cases, and an executed instruction is one effect at a running state. -/
theorem stepKeepsTheInvariant : Obligations.StepKeepsTheInvariant := fun _ _ h hstep => step_keeps_inv h hstep

/-- A reset that accepts its ROM loads it, and it fits in memory (R403, R404). -/
theorem load_of_hostReset {quirk : ShiftQuirk} {font : Font} {rom : Option (List Byte)} {s : State}
    (h : hostReset quirk font rom = .next s) :
    ∃ image : List Byte, image.length ≤ Config.romMax ∧ s = State.load quirk font image := by
  unfold hostReset at h
  split at h
  · cases h
  · split at h
    · cases h
    · cases h
      exact ⟨_, by omega, rfl⟩

theorem load_inv (quirk : ShiftQuirk) (font : Font) {image : List Byte} (hlen : image.length ≤ Config.romMax) :
    (State.load quirk font image).Inv := by
  have hfit : Config.progStart + image.length ≤ Config.memSize := by
    simp only [Config.romMax, Config.memSize, Config.progStart] at *
    omega
  exact {
    memory := (Memory.mk font []).wf_writeBytes _ image (Memory.wf_fresh font) hfit
    index := Nat.zero_le _
    counter := show (0x200 : Word).toNat ≤ 0x10FE by decide
    rom := ⟨Nat.le_add_right _ _, hfit⟩
    slotZero := by simp [State.load, State.resetWith]
    slots := fun k => by simp [State.load, State.resetWith]
    fault := fun r hr => by cases hr }

theorem Reachable.inv {s : State} (hs : Reachable s) : s.Inv := by
  induction hs with
  | reset quirk font rom s h =>
    obtain ⟨image, hlen, rfl⟩ := load_of_hostReset h
    exact load_inv quirk font hlen
  | transaction e s t _ h ih =>
    cases e with
    | step => exact step_keeps_inv ih h
    | host op =>
      cases h
      exact ih.applyHostOp op

/-- Settles O20: the bounds are clauses of the invariant, which every reachable state has. -/
theorem reachableStatesStayInBounds : Obligations.ReachableStatesStayInBounds := fun _ hs =>
  have h := hs.inv
  ⟨h.counter, h.index, h.slotZero, h.rom.2, h.memory⟩

end Sys2Proof.Machine
end

section
/-! SUPPORT. The decoder reads an encoded instruction back (spec 30_encoding.md R103, R104). -/

namespace Sys2Proof

/-- Decoding the word of a well-formed instruction gives the instruction back (R103, R104). -/
theorem decodeWord_encode {i : Instr} (h : i.wf = true) : decodeWord (encode i) = some i := by
  cases i with
  | op00E0 | op00EE => decide
  | opDXYN x y n =>
    have hn : n % 16 = n := Nat.mod_eq_of_lt (Nat.lt_succ_of_le (of_decide_eq_true h))
    simp [decodeWord, encode, hn]
  | op8XY0 | op8XY1 | op8XY2 | op8XY3 | op8XY4 | op8XY5 | op8XY6 | op8XY7 | op8XYE =>
    simp [decodeWord, decodeClass8, encode]
  | opFX07 | opFX0A | opFX15 | opFX18 | opFX1E | opFX29 | opFX33 | opFX55 | opFX65 =>
    simp [decodeWord, decodeClassF, encode]
  | _ => simp [decodeWord, encode]

end Sys2Proof
end

section
/-! SUPPORT. What a dump stores is what the next load reads and what the next step runs (spec 20_memory.md section 5). -/

namespace Sys2Proof.Machine

/-- After a dump of V0 to Vx the byte at `a + k` is Vk (R84, R254). -/
theorem State.readByte_storeBytes_dumpV {s : State} {x k : Reg} {a : Nat} (hM : s.M.wf) (ha : a + x.val ≤ 0xFFF)
    (hk : k ≤ x) : (s.storeBytes a (s.dumpV x)).readByte (a + k.val) = s.getV k := by
  have hlen : k.val < (s.dumpV x).length := by rw [State.length_dumpV]; exact Nat.lt_succ_of_le hk
  have hfit : a + (s.dumpV x).length ≤ Config.memSize := by
    rw [State.length_dumpV, Config.memSize]; omega
  calc (s.storeBytes a (s.dumpV x)).readByte (a + k.val)
      = (s.dumpV x)[k.val] := s.M.read_writeBytes_inside a k.val _ hM hlen hfit
    _ = s.getV k := s.getElem_dumpV x k.val hlen

/-- A load of values that V0 to Vx already hold changes no register (R255). -/
theorem State.V_loadV_of_eq_getV {s : State} {x : Reg} {f : Nat → Byte} (h : ∀ k : Reg, k ≤ x → f k.val = s.getV k) :
    (s.loadV x f).V = s.V := by
  refine Vector.ext fun k hk => ?_
  change (s.loadV x f).getV ⟨k, hk⟩ = s.getV ⟨k, hk⟩
  rw [State.getV_loadV]
  split
  · exact h ⟨k, hk⟩ ‹_›
  · rfl

/-- Settles O43: the load reads back from memory the registers that the dump stored there. -/
theorem loadAfterDumpRestoresRegisters : Obligations.LoadAfterDumpRestoresRegisters := by
  intro x s hM hI
  exact ⟨_, _, exec_dump hI, exec_load hI,
    State.V_loadV_of_eq_getV fun _ hk => State.readByte_storeBytes_dumpV hM hI hk⟩

/-- After a dump onto pc of two registers or more, the fetch reads V0 and V1 (R76, R87). -/
theorem State.fetchWord_storeBytes_dumpV {s : State} {x : Reg} (hM : s.M.wf) (hx : 1 ≤ x.val)
    (hpc : s.pc.toNat + x.val ≤ 0xFFF) :
    (s.storeBytes s.pc.toNat (s.dumpV x)).fetchWord = wordOfBytes (s.getV 0) (s.getV 1) :=
  congrArg₂ wordOfBytes (State.readByte_storeBytes_dumpV (k := 0) hM hpc (Fin.zero_le x))
    (State.readByte_storeBytes_dumpV (k := 1) hM hpc (Fin.le_def.2 hx))

/-- Settles O44: the dump leaves a state that fetches the stored word, which decodes to the instruction. -/
theorem storedCodeRunsAtTheNextStep : Obligations.StoredCodeRunsAtTheNextStep := by
  intro x i s t hM hwf hx hF hend hIpc hI hw ht
  rw [exec_dump hI] at ht
  cases ht
  rw [hIpc] at hI ⊢
  have hfetch : (s.storeBytes s.pc.toNat (s.dumpV x)).Fetches := ⟨hF, hend, show s.pc.toNat + 1 ≤ 0xFFF by omega⟩
  refine step_of_instr hfetch ?_
  rw [State.fetchWord_storeBytes_dumpV hM hx hI, hw]
  exact decodeWord_encode hwf

end Sys2Proof.Machine
end

section
/-! SUPPORT. The encoder and the opcode map's masks against the decoder (spec 30_encoding.md R104 to R106). -/

namespace Sys2Proof

open Sys2Proof.Claims

/-! ### A recognized word is the encoding of its instruction (R103, R104) -/

section
variable {w : Word} {c n : BitVec 4} {nn : Byte} {nnn : Addr12}

theorem encAddr_of_fields (hc : fieldC w = c) (hnnn : fieldNNN w = nnn) : encAddr c nnn = w :=
  hc ▸ hnnn ▸ encAddr_fields w

theorem encRegImm_of_fields (hc : fieldC w = c) (hnn : fieldNN w = nn) : encRegImm c (fieldX w) nn = w :=
  hc ▸ hnn ▸ encRegImm_fields w

theorem encRegReg_of_fields (hc : fieldC w = c) (hn : fieldN w = n) : encRegReg c (fieldX w) (fieldY w) n = w :=
  hc ▸ hn ▸ encRegReg_fields w

end

theorem encode_of_decodeClass8 {x y : Reg} {n : BitVec 4} {i : Instr} (h : decodeClass8 x y n = some i) :
    encode i = encRegReg 0x8#4 x y n ∧ i.wf = true := by
  unfold decodeClass8 at h
  split at h <;> cases h <;> exact ⟨rfl, rfl⟩

theorem encode_of_decodeClassF {x : Reg} {nn : Byte} {i : Instr} (h : decodeClassF x nn = some i) :
    encode i = encRegImm 0xF#4 x nn ∧ i.wf = true := by
  unfold decodeClassF at h
  split at h <;> cases h <;> exact ⟨rfl, rfl⟩

/-- Each kind of word the decoder recognizes is laid out from the fields it selects by and those it hands on. -/
theorem encode_of_decodeWord {w : Word} {i : Instr} (h : decodeWord w = some i) : encode i = w ∧ i.wf = true := by
  simp only [decodeWord] at h
  split at h
  case h_1 hc =>
    split at h
    case h_1 hnnn | h_2 hnnn =>
      cases h
      exact ⟨encAddr_of_fields hc hnnn, rfl⟩
    case h_3 => cases h
  case h_2 hc | h_3 hc | h_11 hc | h_12 hc =>
    cases h
    exact ⟨encAddr_of_fields hc rfl, rfl⟩
  case h_4 hc | h_5 hc | h_7 hc | h_8 hc | h_13 hc =>
    cases h
    exact ⟨encRegImm_of_fields hc rfl, rfl⟩
  case h_6 hc | h_10 hc =>
    split at h
    case h_1 hn =>
      cases h
      exact ⟨encRegReg_of_fields hc hn, rfl⟩
    case h_2 => cases h
  case h_9 hc => exact encRegReg_of_fields hc rfl ▸ encode_of_decodeClass8 h
  case h_14 hc =>
    cases h
    have hn : fieldN w = BitVec.ofNat 4 (fieldN w).toNat := by simp
    exact ⟨encRegReg_of_fields hc hn, decide_eq_true (Nat.le_of_lt_succ (fieldN w).isLt)⟩
  case h_15 hc =>
    split at h
    case h_1 hnn | h_2 hnn =>
      cases h
      exact ⟨encRegImm_of_fields hc hnn, rfl⟩
    case h_3 => cases h
  case h_16 hc => exact encRegImm_of_fields hc rfl ▸ encode_of_decodeClassF h
  case h_17 => cases h

/-! ### The rows of the opcode map (R104) -/

open Laws.EncodesItsRow in
/-- The laws of the single constructors together. -/
theorem encodesItsRow (i : Instr) : Laws.EncodesItsRow.Statement i := by
  cases i with
  | op00E0 => exact op00E0
  | op00EE => exact op00EE
  | op1NNN nnn => exact op1NNN nnn
  | op2NNN nnn => exact op2NNN nnn
  | op3XNN x nn => exact op3XNN x nn
  | op4XNN x nn => exact op4XNN x nn
  | op5XY0 x y => exact op5XY0 x y
  | op6XNN x nn => exact op6XNN x nn
  | op7XNN x nn => exact op7XNN x nn
  | op8XY0 x y => exact op8XY0 x y
  | op8XY1 x y => exact op8XY1 x y
  | op8XY2 x y => exact op8XY2 x y
  | op8XY3 x y => exact op8XY3 x y
  | op8XY4 x y => exact op8XY4 x y
  | op8XY5 x y => exact op8XY5 x y
  | op8XY6 x y => exact op8XY6 x y
  | op8XY7 x y => exact op8XY7 x y
  | op8XYE x y => exact op8XYE x y
  | op9XY0 x y => exact op9XY0 x y
  | opANNN nnn => exact opANNN nnn
  | opBNNN nnn => exact opBNNN nnn
  | opCXNN x nn => exact opCXNN x nn
  | opDXYN x y n => exact opDXYN x y n
  | opEX9E x => exact opEX9E x
  | opEXA1 x => exact opEXA1 x
  | opFX07 x => exact opFX07 x
  | opFX0A x => exact opFX0A x
  | opFX15 x => exact opFX15 x
  | opFX18 x => exact opFX18 x
  | opFX1E x => exact opFX1E x
  | opFX29 x => exact opFX29 x
  | opFX33 x => exact opFX33 x
  | opFX55 x => exact opFX55 x
  | opFX65 x => exact opFX65 x

theorem row_mem (i : Instr) : i.row ∈ opcodeTable := (encodesItsRow i).1

theorem encode_matches_row (i : Instr) : encode i &&& i.row.mask = i.row.pattern := eq_of_beq (encodesItsRow i).2

/-! What a word keeps under each of the three masks with operand bits, read off the match value. -/

theorem fieldC_of_classMask {w p : Word} (h : w &&& 0xF000#16 = p) : fieldC w = p.extractLsb' 12 4 := by
  rw [and_classMask_fields] at h
  exact h ▸ (fieldC_encAddr (fieldC w) 0).symm

theorem fields_of_nibbleMask {w p : Word} (h : w &&& 0xF00F#16 = p) :
    fieldC w = p.extractLsb' 12 4 ∧ fieldN w = p.extractLsb' 0 4 := by
  rw [and_nibbleMask_fields] at h
  exact h ▸ ⟨(fieldC_encRegReg (fieldC w) 0 0 (fieldN w)).symm, (fieldN_encRegReg (fieldC w) 0 0 (fieldN w)).symm⟩

theorem fields_of_byteMask {w p : Word} (h : w &&& 0xF0FF#16 = p) :
    fieldC w = p.extractLsb' 12 4 ∧ fieldNN w = p.extractLsb' 0 8 := by
  rw [and_byteMask_fields] at h
  exact h ▸ ⟨(fieldC_encRegImm (fieldC w) 0 (fieldNN w)).symm, (fieldNN_encRegImm (fieldC w) 0 (fieldNN w)).symm⟩

/-- A word that matches an instruction's row decodes to an instruction of that row: the bits the mask keeps are the ones
the decoder selects by. -/
theorem row_of_matches {w : Word} (i : Instr) (h : w &&& i.row.mask = i.row.pattern) :
    (decodeWord w).map Instr.row = some i.row := by
  cases i with
  | op00E0 | op00EE =>
    obtain rfl := (BitVec.and_allOnes (x := w)).symm.trans h
    rfl
  | op5XY0 | op9XY0 | op8XY0 | op8XY1 | op8XY2 | op8XY3 | op8XY4 | op8XY5 | op8XY6 | op8XY7 | op8XYE =>
    obtain ⟨hc, hn⟩ := fields_of_nibbleMask h
    simp [decodeWord, decodeClass8, hc, hn, Instr.row]
  | opEX9E | opEXA1 | opFX07 | opFX0A | opFX15 | opFX18 | opFX1E | opFX29 | opFX33 | opFX55 | opFX65 =>
    obtain ⟨hc, hnn⟩ := fields_of_byteMask h
    simp [decodeWord, decodeClassF, hc, hnn, Instr.row]
  | _ =>
    have hc := fieldC_of_classMask h
    simp [decodeWord, hc, Instr.row]

/-- Each row's match value is itself a word of that row. -/
theorem row_of_pattern : ∀ r ∈ opcodeTable, (decodeWord r.pattern).map Instr.row = some r := by decide

/-- A word matches a row of the opcode map exactly when it decodes to an instruction of that row (R104). -/
theorem matches_iff_decodes {r : OpcodeRow} (hr : r ∈ opcodeTable) (w : Word) :
    w &&& r.mask = r.pattern ↔ ∃ i, decodeWord w = some i ∧ i.row = r := by
  constructor
  · obtain ⟨i, -, rfl⟩ := Option.map_eq_some_iff.1 (row_of_pattern r hr)
    exact fun h => Option.map_eq_some_iff.1 (row_of_matches i h)
  · rintro ⟨i, hi, rfl⟩
    rw [← (encode_of_decodeWord hi).1]
    exact encode_matches_row i

theorem decodeWord_eq_none_iff_no_match (w : Word) :
    decodeWord w = none ↔ ∀ r ∈ opcodeTable, ¬(w &&& r.mask = r.pattern) := by
  constructor
  · intro h r hr hm
    obtain ⟨i, hi, -⟩ := (matches_iff_decodes hr w).1 hm
    simp [h] at hi
  · intro h
    by_contra hsome
    obtain ⟨i, hi⟩ := Option.ne_none_iff_exists'.1 hsome
    exact h i.row (row_mem i) ((matches_iff_decodes (row_mem i) w).2 ⟨i, hi, rfl⟩)

/-- Two rows that one word matches are both the row of the instruction it decodes to (R105). -/
theorem row_unique {w : Word} {r r' : OpcodeRow} (hr : r ∈ opcodeTable) (hr' : r' ∈ opcodeTable)
    (h : w &&& r.mask = r.pattern) (h' : w &&& r'.mask = r'.pattern) : r = r' := by
  obtain ⟨i, hi, rfl⟩ := (matches_iff_decodes hr w).1 h
  obtain ⟨j, hj, rfl⟩ := (matches_iff_decodes hr' w).1 h'
  rw [Option.some.inj (hi.symm.trans hj)]

theorem opcodeTable_nodup : opcodeTable.Nodup := by decide

/-! ### The unrecognized words, class by class (R106) -/

theorem eq_encAddr_iff {w : Word} {c : BitVec 4} (hc : fieldC w = c) (nnn : Addr12) :
    w = encAddr c nnn ↔ fieldNNN w = nnn :=
  ⟨fun h => h ▸ fieldNNN_encAddr c nnn, fun h => (encAddr_of_fields hc h).symm⟩

/-- The nibbles outside the nine that select an instruction of class 8. -/
theorem not_mem_class8_nibbles : ∀ n : BitVec 4,
    n ∉ [0x0#4, 0x1#4, 0x2#4, 0x3#4, 0x4#4, 0x5#4, 0x6#4, 0x7#4, 0xE#4] ↔
      n = 0x8#4 ∨ n = 0x9#4 ∨ n = 0xA#4 ∨ n = 0xB#4 ∨ n = 0xC#4 ∨ n = 0xD#4 ∨ n = 0xF#4 := by decide

theorem decodeClass8_eq_none_iff (x y : Reg) (n : BitVec 4) : decodeClass8 x y n = none ↔
    n = 0x8#4 ∨ n = 0x9#4 ∨ n = 0xA#4 ∨ n = 0xB#4 ∨ n = 0xC#4 ∨ n = 0xD#4 ∨ n = 0xF#4 := by
  rw [← not_mem_class8_nibbles]
  unfold decodeClass8
  split <;> simp_all

theorem decodeClassF_eq_none_iff (x : Reg) (nn : Byte) : decodeClassF x nn = none ↔
    nn ∉ [0x07#8, 0x0A#8, 0x15#8, 0x18#8, 0x1E#8, 0x29#8, 0x33#8, 0x55#8, 0x65#8] := by
  unfold decodeClassF
  split <;> simp_all

/-- The six classes with unrecognized words, and the ten in which every word is an instruction. -/
theorem class_cases : ∀ c : BitVec 4, c = 0x0#4 ∨ (c = 0x5#4 ∨ c = 0x9#4 ∨ c = 0xE#4) ∨ c = 0x8#4 ∨ c = 0xF#4 ∨
    c ∈ [0x1#4, 0x2#4, 0x3#4, 0x4#4, 0x6#4, 0x7#4, 0xA#4, 0xB#4, 0xC#4, 0xD#4] := by decide

/-- In each class, the decoder answers none on the words that R106 lists there, which are none in ten of the classes. -/
theorem decodeWord_eq_none_iff (w : Word) : decodeWord w = none ↔ UnrecognizedClass w := by
  obtain hc | hc | hc | hc | hc := class_cases (fieldC w)
  · have hE0 : w = 0x00E0 ↔ fieldNNN w = 0x0E0#12 := eq_encAddr_iff hc 0x0E0#12
    have hEE : w = 0x00EE ↔ fieldNNN w = 0x0EE#12 := eq_encAddr_iff hc 0x0EE#12
    simp only [UnrecognizedClass, decodeWord, hc, ne_eq, hE0, hEE]
    split <;> simp_all
  · rcases hc with hc | hc | hc
    all_goals
      simp only [UnrecognizedClass, decodeWord, hc]
      split <;> simp_all
  · simp [UnrecognizedClass, decodeWord, hc, decodeClass8_eq_none_iff]
  · simp [UnrecognizedClass, decodeWord, hc, decodeClassF_eq_none_iff]
  · simp only [List.mem_cons, List.not_mem_nil, or_false] at hc
    rcases hc with hc | hc | hc | hc | hc | hc | hc | hc | hc | hc <;> simp [UnrecognizedClass, decodeWord, hc]

/-! ### The statements -/

/-- Settles O1: the fields of an encoded word are the operands it was laid out from. -/
theorem encodedInstructionsDecodeToThemselves : Obligations.EncodedInstructionsDecodeToThemselves :=
  fun _ h => decodeWord_encode h

/-- Settles O2: the class and the fields that the decoder reads make up the whole word. -/
theorem recognizedWordsEncodeBack : Obligations.RecognizedWordsEncodeBack := fun _ _ h => encode_of_decodeWord h

/-- Settles O3: the mask keeps the bits the decoder selects by, and an encoded word matches its row. -/
theorem decodingIsMaskAndMatch : Obligations.DecodingIsMaskAndMatch :=
  ⟨rfl, fun w _ hr => matches_iff_decodes hr w⟩

/-- Settles O4: the rows a word matches are all the row of the instruction it decodes to, listed once. -/
theorem rowsAreDisjointAndDecideRecognition : Obligations.RowsAreDisjointAndDecideRecognition := by
  refine fun w => ⟨?_, decodeWord_eq_none_iff_no_match w⟩
  rw [← List.toFinset_card_of_nodup (opcodeTable_nodup.filter _), Finset.card_le_one_iff]
  intro r r' hr hr'
  simp only [List.mem_toFinset, List.mem_filter, decide_eq_true_eq] at hr hr'
  obtain ⟨hr, hm⟩ := hr
  obtain ⟨hr', hm'⟩ := hr'
  exact row_unique hr hr' hm hm'

/-- Settles O5, class by class. -/
theorem unrecognizedWordsAreTheSixClasses : Obligations.UnrecognizedWordsAreTheSixClasses := decodeWord_eq_none_iff

/-- Settles O6: the ten words are decoded by evaluation. -/
theorem sampleWordsDecodeAsTheSpecSays : Obligations.SampleWordsDecodeAsTheSpecSays := by
  unfold Obligations.SampleWordsDecodeAsTheSpecSays
  decide

end Sys2Proof
end

section
/-! SUPPORT. What a step answers and reports in each of its phases (spec 40_pipeline.md sections 1 to 3): halted, idle, past
memory, and fetching, an unrecognized word or an instruction. -/

namespace Sys2Proof.Machine

open Sys2Proof.Claims

/-- The phases of the step in the order of its checks (R130 to R133). -/
theorem State.phases (s : State) :
    s.FAULT ≠ none ∨
    (s.FAULT = none ∧ s.ROM_END ≤ s.pc.toNat) ∨
    (s.FAULT = none ∧ s.pc.toNat < s.ROM_END ∧ 0xFFF < s.pc.toNat + 1) ∨
    s.Fetches := by
  by_cases hF : s.FAULT = none
  · rcases Nat.lt_or_ge s.pc.toNat s.ROM_END with hend | hend
    · rcases Nat.lt_or_ge 0xFFF (s.pc.toNat + 1) with hpc | hpc
      · exact .inr (.inr (.inl ⟨hF, hend, hpc⟩))
      · exact .inr (.inr (.inr ⟨hF, hend, hpc⟩))
    · exact .inr (.inl ⟨hF, hend⟩)
  · exact .inl hF

/-- The words of the statements for a fetch, in the words of the step's laws. -/
theorem fetchesWord_iff {s : State} {w : Word} : FetchesWord s w ↔ s.Fetches ∧ s.fetchWord = w :=
  ⟨fun ⟨hF, hend, hpc, hw⟩ => ⟨⟨hF, hend, hpc⟩, hw⟩, fun ⟨⟨hF, hend, hpc⟩, hw⟩ => ⟨hF, hend, hpc, hw⟩⟩

/-! ### What the phases answer and report -/

section
variable {s : State}

theorem step_of_halted (h : s.FAULT ≠ none) : step s = .next s := if_pos (s.halted_iff.2 h)

theorem stepReport_of_halted (h : s.FAULT ≠ none) : stepReport s = .halted := if_pos (s.halted_iff.2 h)

theorem State.halted_eq_false (hF : s.FAULT = none) : s.halted = false := by simp [State.halted, hF]

theorem step_of_idle (hF : s.FAULT = none) (h : s.ROM_END ≤ s.pc.toNat) : step s = .next s := by
  simp [step, pipeline, State.halted_eq_false hF, s.idle_iff.2 h]

theorem stepReport_of_idle (hF : s.FAULT = none) (h : s.ROM_END ≤ s.pc.toNat) : stepReport s = .idle := by
  simp [stepReport, State.halted_eq_false hF, s.idle_iff.2 h]

theorem State.idle_eq_false (h : s.pc.toNat < s.ROM_END) : s.idle = false := decide_eq_false (Nat.not_le_of_lt h)

theorem step_of_fetchFault (hF : s.FAULT = none) (hend : s.pc.toNat < s.ROM_END) (hpc : 0xFFF < s.pc.toNat + 1) :
    step s = .next s.raiseFetch := by
  simp [step, pipeline, State.halted_eq_false hF, State.idle_eq_false hend, s.fetchOutOfRange_iff.2 hpc]

theorem stepReport_of_fetchFault (hF : s.FAULT = none) (hend : s.pc.toNat < s.ROM_END) (hpc : 0xFFF < s.pc.toNat + 1) :
    stepReport s = .faulted ⟨.addressOutOfRange, s.pc, 0, 0x1000⟩ := by
  simp [stepReport, State.halted_eq_false hF, State.idle_eq_false hend, s.fetchOutOfRange_iff.2 hpc]

theorem stepReport_of_unknown (h : s.Fetches) (hd : decodeWord s.fetchWord = none) :
    stepReport s = .unknown s.pc s.fetchWord := by
  obtain ⟨h1, h2, h3⟩ := h.flags
  simp [stepReport, h1, h2, h3, hd]

theorem stepReport_of_instr (h : s.Fetches) {i : Instr} (hd : decodeWord s.fetchWord = some i) :
    stepReport s = reportOf i s.pc s.fetchWord s.advance := by
  obtain ⟨h1, h2, h3⟩ := h.flags
  simp [stepReport, h1, h2, h3, hd]

end

/-! ### What an executed instruction reports (R141) -/

section
variable {i : Instr} {s t : State} (A w : Word)

theorem reportOf_of_fault {r : FaultRecord} (h : exec i s = .next t) (hr : t.FAULT = some r) :
    reportOf i A w s = .faulted r := by
  simp only [reportOf, h, hr]

theorem reportOf_of_no_fault (h : exec i s = .next t) (hF : t.FAULT = none) :
    reportOf i A w s = if waitsForKey i s then .waiting A else .executed A w := by
  simp only [reportOf, h, hF]

/-- The instruction that waits is FX0A with no pending key, and no other (R323). -/
theorem waitsForKey_iff (i : Instr) (s : State) :
    waitsForKey i s = true ↔ (∃ x, i = .opFX0A x) ∧ s.PENDING = none := by
  cases i with
  | opFX0A x => simp [waitsForKey]
  | _ => simp [waitsForKey]

/-- An executed instruction reports a fault, a wait or its execution, never Idle. -/
theorem reportOf_ne_idle (i : Instr) (s : State) : reportOf i A w s ≠ .idle := by
  obtain ⟨t, ht, -⟩ := exec_effect i s
  rcases hF : t.FAULT with _ | r
  · rw [reportOf_of_no_fault A w ht hF]
    split <;> simp
  · simp [reportOf_of_fault A w ht hF]

end

/-! ### The fault of an executed instruction (R139) -/

/-- The only effect that latches a fault is the fault of the instruction. -/
theorem Effect.eq_raiseIn {i : Instr} {s t : State} {r : FaultRecord} (he : Effect i s t) (hF : s.FAULT = none)
    (hr : t.FAULT = some r) : ∃ kind detail, t = s.raiseIn i kind detail := by
  cases he with
  | fault => exact ⟨_, _, rfl⟩
  | _ => simp [hF] at hr

/-- The fault of the fetched instruction undoes the advance of pc and records its address and its word (R103, R139). -/
theorem State.raiseIn_advance {s : State} {i : Instr} (hd : decodeWord s.fetchWord = some i) (kind : FaultKind)
    (detail : Word) :
    s.advance.raiseIn i kind detail = { s with FAULT := some ⟨kind, s.pc, s.fetchWord, detail⟩ } := by
  have hpc : s.advance.pc - 2 = s.pc := BitVec.add_sub_cancel s.pc 2
  rw [State.raiseIn, hpc, (encode_of_decodeWord hd).1]
  rfl

/-- The fault a step latches stands in the state before it, with the record of what the step was at, and is what the step
reports (R139, R141, R357). -/
theorem step_fault_precise {s t : State} {r : FaultRecord} (hF : s.FAULT = none) (h : step s = .next t)
    (hr : t.FAULT = some r) :
    t = { s with FAULT := some r } ∧ r.pc = s.pc ∧
      r.opcode = (if s.pc.toNat + 1 > 0xFFF then 0 else wordAtPc s) ∧ stepReport s = .faulted r := by
  obtain ⟨hne, -⟩ | ⟨-, -, rfl⟩ | ⟨-, hend, hpc, rfl⟩ | ⟨-, -, rfl⟩ | ⟨hf, i, hd, hi⟩ := step_cases h
  · exact absurd hF hne
  · simp [hF] at hr
  · cases hr
    exact ⟨rfl, rfl, (if_pos hpc).symm, stepReport_of_fetchFault hF hend hpc⟩
  · simp [hF] at hr
  · have hrep := (stepReport_of_instr hf hd).trans (reportOf_of_fault _ _ hi hr)
    obtain ⟨kind, detail, rfl⟩ := (Effect.of_exec hi).eq_raiseIn hF hr
    rw [State.raiseIn_advance hd] at hr ⊢
    cases hr
    exact ⟨rfl, rfl, (if_neg (Nat.not_lt_of_le hf.inMemory)).symm, hrep⟩

/-! ### The statements of one step -/

/-- Settles O12: each phase has its answer, and every instruction has one. -/
theorem everyStepAnswersANextState : Obligations.EveryStepAnswersANextState := by
  intro s
  obtain hF | ⟨hF, hend⟩ | ⟨hF, hend, hpc⟩ | hf := s.phases
  · exact ⟨_, step_of_halted hF⟩
  · exact ⟨_, step_of_idle hF hend⟩
  · exact ⟨_, step_of_fetchFault hF hend hpc⟩
  · rcases hd : decodeWord s.fetchWord with _ | i
    · exact ⟨_, step_of_unknown hf hd⟩
    · obtain ⟨t, ht, -⟩ := exec_effect i s.advance
      exact ⟨t, (step_of_instr hf hd).trans ht⟩

/-- Settles O14: the fault is precise, and the latch halts the core. -/
theorem faultsArePrecise : Obligations.FaultsArePrecise := by
  intro s t r hF h hr
  obtain ⟨ht, hpc, hop, hrep⟩ := step_fault_precise hF h hr
  have hhalted : t.FAULT ≠ none := by simp [hr]
  exact ⟨ht, hpc, hop, hrep, step_of_halted hhalted, stepReport_of_halted hhalted⟩

/-- Settles O15: by whether the fetched word is recognized, and then by what its instruction reports. -/
theorem stepReportsWhatItDid : Obligations.StepReportsWhatItDid := by
  intro s t w hw h hF
  obtain ⟨hf, rfl⟩ := fetchesWord_iff.1 hw
  rcases hd : decodeWord s.fetchWord with _ | i
  · exact stepReport_of_unknown hf hd
  · rw [step_of_instr hf hd] at h
    calc stepReport s
        = reportOf i s.pc s.fetchWord s.advance := stepReport_of_instr hf hd
      _ = if waitsForKey i s.advance then .waiting s.pc else .executed s.pc s.fetchWord :=
          reportOf_of_no_fault _ _ h hF
      _ = _ := if_congr (waitsForKey_iff i s.advance) rfl rfl

/-- Settles O7: the fetched encoding decodes to the instruction. -/
theorem stepRunsTheDecodedInstruction : Obligations.StepRunsTheDecodedInstruction := by
  intro s i hwf hw
  obtain ⟨hf, hword⟩ := fetchesWord_iff.1 hw
  exact step_of_instr hf (hword ▸ decodeWord_encode hwf)

/-- Settles O8: the fetch of an unrecognized word leaves the advance of pc alone. -/
theorem stepSkipsAnUnrecognizedWord : Obligations.StepSkipsAnUnrecognizedWord := by
  intro s w hw hd
  obtain ⟨hf, rfl⟩ := fetchesWord_iff.1 hw
  exact ⟨step_of_unknown hf hd, stepReport_of_unknown hf hd⟩

/-- Settles O9: the halt is the first check of the step. -/
theorem haltedStepChangesNothing : Obligations.HaltedStepChangesNothing :=
  fun _ hF => ⟨step_of_halted hF, stepReport_of_halted hF⟩

/-- Below the end of the ROM a core with no fault reports its fetch fault, an unrecognized word or its instruction. -/
theorem stepReport_ne_idle {s : State} (hF : s.FAULT = none) (hend : s.pc.toNat < s.ROM_END) : stepReport s ≠ .idle := by
  obtain hne | ⟨-, hidle⟩ | ⟨-, -, hpc⟩ | hf := s.phases
  · exact absurd hF hne
  · exact absurd hend (Nat.not_lt_of_le hidle)
  · simp [stepReport_of_fetchFault hF hend hpc]
  · rcases hd : decodeWord s.fetchWord with _ | i
    · simp [stepReport_of_unknown hf hd]
    · rw [stepReport_of_instr hf hd]
      exact reportOf_ne_idle _ _ i s.advance

/-- Settles O10: the idle check comes before the fetch, and no later phase reports Idle. -/
theorem idleStepChangesNothing : Obligations.IdleStepChangesNothing :=
  fun _ hF => ⟨fun h => ⟨step_of_idle hF h, stepReport_of_idle hF h⟩, stepReport_ne_idle hF⟩

/-- Settles O11: between 0xFFE and a ROM_END of at most 0x1000 there is one address. -/
theorem fetchPastMemoryFaults : Obligations.FetchPastMemoryFaults := by
  intro s hF hend hpc
  refine ⟨step_of_fetchFault hF hend hpc, fun hrom => ?_⟩
  have htop : s.pc.toNat = 0xFFF := by omega
  exact ⟨BitVec.eq_of_toNat_eq htop, by omega⟩

end Sys2Proof.Machine
end

section
/-! SUPPORT. The end of a run is permanent (spec 40_pipeline.md R143, 60_exceptions.md R369). -/

namespace Sys2Proof.Machine

/-- Nothing has changed but what the host writes: the timers, the keypad, the pending key and the random supply (R369). -/
def ChangesOnlyHostFields (s t : State) : Prop :=
  t = { s with DT := t.DT, ST := t.ST, KEY := t.KEY, PENDING := t.PENDING, rndSupply := t.rndSupply }

theorem ChangesOnlyHostFields.refl (s : State) : ChangesOnlyHostFields s s := rfl

theorem ChangesOnlyHostFields.trans {s t u : State} (hst : ChangesOnlyHostFields s t)
    (htu : ChangesOnlyHostFields t u) : ChangesOnlyHostFields s u := by
  unfold ChangesOnlyHostFields at hst htu ⊢
  calc u
      = { t with DT := u.DT, ST := u.ST, KEY := u.KEY, PENDING := u.PENDING, rndSupply := u.rndSupply } := htu
    _ = { s with DT := u.DT, ST := u.ST, KEY := u.KEY, PENDING := u.PENDING, rndSupply := u.rndSupply } := by rw [hst]

/-- Whether a run has ended depends on FAULT, pc and ROM_END, which the host does not write. -/
theorem ChangesOnlyHostFields.ended_eq {s t : State} (h : ChangesOnlyHostFields s t) : t.ended = s.ended := by
  unfold ChangesOnlyHostFields at h
  rw [h]
  rfl

theorem State.ended_iff (s : State) : s.ended = true ↔ s.FAULT ≠ none ∨ s.ROM_END ≤ s.pc.toNat := by
  rw [State.ended, Bool.or_eq_true, State.halted_iff, State.idle_iff]

theorem step_of_ended {s : State} (h : s.ended = true) : step s = .next s := by
  by_cases hF : s.FAULT = none
  · exact step_of_idle hF ((s.ended_iff.1 h).resolve_left (not_not_intro hF))
  · exact step_of_halted hF

/-- In an ended state a step changes nothing, and a host operation only what the host writes. -/
theorem applyTransaction_of_ended (e : Transaction) {s : State} (h : s.ended = true) :
    ∃ t, applyTransaction e s = .next t ∧ ChangesOnlyHostFields s t := by
  cases e with
  | step => exact ⟨s, step_of_ended h, .refl s⟩
  | host op => exact ⟨_, rfl, applyHostOp_frame op s⟩

/-- Settles O21: by induction on the run, each transaction of which leaves an ended state. -/
theorem endedRunsStayEnded : Obligations.EndedRunsStayEnded := by
  intro es
  induction es with
  | nil => exact fun s h => ⟨s, rfl, h, .refl s⟩
  | cons e rest ih =>
    intro s h
    obtain ⟨t, ht, hst⟩ := applyTransaction_of_ended e h
    obtain ⟨u, hu, hended, htu⟩ := ih t (hst.ended_eq.trans h)
    refine ⟨u, ?_, hended, hst.trans htu⟩
    simp only [runTransactions, ht, hu]

end Sys2Proof.Machine
end

section
/-! SUPPORT. What the jumps, the skips, the call and the return do to pc and the call stack (spec 41_control_flow.md). -/

namespace Sys2Proof.Machine

open Sys2Proof.Claims

/-! ### Writing pc and nothing else (R161 to R167) -/

theorem State.changesOnlyPc_setPc (s : State) (v : Word) : ChangesOnlyPc s (s.setPc v) := ⟨rfl, fun _ => rfl⟩

theorem State.changesOnlyPc_skipIf (s : State) (c : Bool) : ChangesOnlyPc s (s.skipIf c) := by
  cases c with
  | false => exact ⟨rfl, fun _ => rfl⟩
  | true => exact s.changesOnlyPc_setPc (s.pc + 2)

/-- A skip on equality (R163, R165). -/
theorem State.pc_skipIf_beq (s : State) (a b : Byte) : (s.skipIf (a == b)).pc = if a = b then s.pc + 2 else s.pc := by
  simp only [State.pc_skipIf, beq_iff_eq]

/-- A skip on difference (R164, R166). -/
theorem State.pc_skipIf_bne (s : State) (a b : Byte) : (s.skipIf (a != b)).pc = if a = b then s.pc else s.pc + 2 := by
  simp only [State.pc_skipIf, bne_iff_ne, ite_not]

/-! ### The call stack (R160, R162) -/

/-- The top slot after a push is the one pushed (R37). -/
theorem State.stackTop_push {s : State} (h : s.sp.val < 15) (v : Word) : (s.push v).stackTop = v :=
  (slot_push h v _).trans (if_pos (val_sp_push h v))

/-- A pop frees the slot that a push took, and the slot keeps its value (R160). -/
theorem State.pop_push (s : State) (v : Word) : (s.push v).pop = { s with S := (s.push v).S } := by
  simp only [State.pop, State.push, add_sub_cancel_right]

/-- A fault raised by the instruction at pc - 2 is the claims' `faulted` (R139). -/
theorem State.raiseIn_eq_faulted (s : State) (i : Instr) (kind : FaultKind) (detail : Word) :
    s.raiseIn i kind detail = faulted s i kind detail := rfl

/-- The return at the target of a call answers the state before the call but for the stack array: the call changed
pc, which the pop restores from the slot the call wrote, sp, which it counts back, and that slot. -/
theorem exec_return_of_call {s : State} (nnn : Addr12) (h : s.sp.val < 15) :
    exec .op00EE ((s.push s.pc).setPc (zext16 nnn)).advance = .next { s with S := (s.push s.pc).S } := by
  have hsp : 0 < (s.push s.pc).sp.val := val_sp_push h s.pc ▸ Nat.succ_pos _
  rw [exec_return (s := ((s.push s.pc).setPc (zext16 nnn)).advance) hsp]
  refine congrArg Host.Outcome.next ?_
  calc (s.push s.pc).pop.setPc (s.push s.pc).stackTop
      = State.setPc { s with S := (s.push s.pc).S } s.pc := by rw [State.pop_push, State.stackTop_push h]
    _ = { s with S := (s.push s.pc).S } := rfl

/-! ### The statements -/

/-- Settles O34: below 15 active calls the call is a push and a jump, at 15 it raises. -/
theorem callPushesAndJumps : Obligations.CallPushesAndJumps := by
  intro nnn s
  refine ⟨toNat_encAddr 0x2#4 nnn, fun h => ?_, fun h => ?_⟩
  · exact ⟨_, exec_call nnn h, toNat_zext16 nnn, val_sp_push h s.pc, slot_push h s.pc, rfl, fun _ => rfl⟩
  · rw [exec_call_full nnn h, State.raiseIn_eq_faulted]

/-- Settles O35: with an active call the return takes the top slot and pops, with none it raises. -/
theorem returnPopsTheCaller : Obligations.ReturnPopsTheCaller := by
  intro s
  refine ⟨rfl, fun h => ?_, fun h => ?_⟩
  · exact ⟨_, exec_return h, rfl, val_sp_pop h, rfl, fun _ => rfl⟩
  · rw [exec_return_empty h, State.raiseIn_eq_faulted]

/-- Settles O36: the return pops what the call pushed. -/
theorem returnUndoesCall : Obligations.ReturnUndoesCall := fun nnn _ h =>
  ⟨_, _, exec_call nnn h, exec_return_of_call nnn h, rfl, rfl, rfl⟩

/-- Settles O33: each jump writes its target to pc. -/
theorem jumpsGoToTheirTarget : Obligations.JumpsGoToTheirTarget := by
  intro nnn s
  refine ⟨toNat_encAddr 0x1#4 nnn, toNat_encAddr 0xB#4 nnn, ?jump, ?jumpOffset⟩
  case jump => exact ⟨_, rfl, toNat_zext16 nnn, s.changesOnlyPc_setPc _⟩
  case jumpOffset => exact ⟨_, rfl, toNat_offsetTarget nnn (s.getV 0), s.changesOnlyPc_setPc _⟩

/-- Settles O37: each is a skip on the equality or the difference of its two operands. -/
theorem skipsAdvanceExactlyOnTheirCondition : Obligations.SkipsAdvanceExactlyOnTheirCondition := by
  intro x y nn s
  refine ⟨toNat_encRegImm 0x3#4 x nn, toNat_encRegImm 0x4#4 x nn, toNat_encRegReg 0x5#4 x y 0x0#4,
    toNat_encRegReg 0x9#4 x y 0x0#4, ?eqImm, ?neImm, ?eqReg, ?neReg⟩
  case eqImm => exact ⟨_, rfl, s.pc_skipIf_beq _ _, s.changesOnlyPc_skipIf _⟩
  case neImm => exact ⟨_, rfl, s.pc_skipIf_bne _ _, s.changesOnlyPc_skipIf _⟩
  case eqReg => exact ⟨_, rfl, s.pc_skipIf_beq _ _, s.changesOnlyPc_skipIf _⟩
  case neReg => exact ⟨_, rfl, s.pc_skipIf_bne _ _, s.changesOnlyPc_skipIf _⟩

end Sys2Proof.Machine
end

section
/-! SUPPORT. What the ALU and the shift unit write to Vx and VF, and what they leave (spec 42_alu_shift.md). -/

namespace Sys2Proof.Machine

open Sys2Proof.Claims

/-! ### The words of class 8 -/

theorem encodesAs_class8 {i : Instr} {x y : Reg} (f : BitVec 4) (h : encode i = encRegReg 0x8#4 x y f) :
    EncodesAs i (0x8000 + f.toNat + 0x100 * x.val + 0x10 * y.val) := by
  rw [EncodesAs, h, toNat_encRegReg, BitVec.toNat_ofNat]
  omega

/-! ### Writing registers and nothing else (R32, R138) -/

theorem State.changesOnlyV_setV (s : State) (x : Reg) (b : Byte) : ChangesOnlyV s (s.setV x b) := ⟨rfl, fun _ => rfl⟩

theorem State.changesOnlyV_setFlagThenV (s : State) (x : Reg) (f b : Byte) : ChangesOnlyV s (s.setFlagThenV x f b) :=
  ⟨rfl, fun _ => rfl⟩

theorem State.writesOnly_setV (s : State) (x : Reg) (b : Byte) : WritesOnly x b s (s.setV x b) :=
  ⟨fun k => s.getV_setV x k b, s.changesOnlyV_setV x b⟩

/-- What an instruction that writes the flag `f` and then the result `b` to Vx leaves behind: the result is in Vx whatever
x is, the flag in VF unless x = F. The result is read through `value`, as a number of either kind. -/
theorem exec_flag_then_result {i : Instr} {s : State} {x : Reg} {f b : Byte}
    (hexec : exec i s = .next (s.setFlagThenV x f b)) {α : Type} {value : Byte → α} {v : α} {flag : Byte}
    (hvalue : value b = v) (hflag : f = flag) :
    ∃ t, exec i s = .next t ∧ value (t.getV x) = v ∧ (x ≠ vF → t.getV vF = flag) ∧
      (∀ k, k ≠ x → k ≠ vF → t.getV k = s.getV k) ∧ ChangesOnlyV s t := by
  refine ⟨_, hexec, ?result, fun hx => ?flag, fun k hkx hkF => ?others, s.changesOnlyV_setFlagThenV x f b⟩
  case result => rw [State.getV_setFlagThenV, if_pos rfl, hvalue]
  case flag => rw [State.getV_setFlagThenV, if_neg hx.symm, if_pos rfl, hflag]
  case others => rw [State.getV_setFlagThenV, if_neg hkx, if_neg hkF]

/-! ### The results as exact numbers modulo 256 (R200) -/

theorem toNat_addResult (a b : Byte) : (addResult a b).toNat = (a.toNat + b.toNat) % 256 := toNat_narrow8 _

theorem toNat_subResult (a b : Byte) : ((subResult a b).toNat : Int) = ((a.toNat : Int) - b.toNat) % 256 := by
  rw [subResult, BitVec.toNat_ofInt]
  exact Int.toNat_of_nonneg (Int.emod_nonneg _ (by decide))

theorem toNat_shrResult (a : Byte) : (shrResult a).toNat = a.toNat / 2 := by
  rw [shrResult, toNat_narrow8]
  omega

theorem toNat_shlResult (a : Byte) : (shlResult a).toNat = a.toNat * 2 % 256 := toNat_narrow8 _

/-! ### The flags (R201, R202) -/

theorem flagByte_decide (p : Prop) [Decidable p] : flagByte (decide p) = if p then 1 else 0 := by
  simp only [flagByte, decide_eq_true_eq]

theorem carryFlag_eq (a b : Byte) : carryFlag a b = if a.toNat + b.toNat > 255 then 1 else 0 := flagByte_decide _

theorem noBorrowFlag_eq (a b : Byte) : noBorrowFlag a b = if a.toNat ≥ b.toNat then 1 else 0 := flagByte_decide _

/-- The lowest bit of a byte, as a flag, is the byte masked with 1. -/
theorem flagByte_getLsbD_zero (a : Byte) : flagByte (a.getLsbD 0) = a &&& 1 := by
  rw [show a &&& 1 = _ from BitVec.and_one_eq_setWidth_ofBool_getLsbD]
  cases a.getLsbD 0 <;> rfl

theorem shrFlag_eq (a : Byte) : shrFlag a = a &&& 1 := flagByte_getLsbD_zero a

/-- Bit 7 is the lowest bit once it is shifted down (R202). -/
theorem shlFlag_eq (a : Byte) : shlFlag a = a >>> 7 &&& 1 := by
  rw [← flagByte_getLsbD_zero, BitVec.getLsbD_ushiftRight, shlFlag]

/-- The operand form and the claims' word for the shift source agree on both settings (R202). -/
theorem State.shiftSource_eq (s : State) (x y : Reg) : s.shiftSource x y = shiftSourceOf s x y := by
  unfold State.shiftSource shiftSourceOf
  cases s.SHIFT_QUIRK <;> rfl

/-! ### The statements -/

/-- Settles O28: the sum follows the carry, so it stays when both go to VF. -/
theorem addWithCarryResultAndFlag : Obligations.AddWithCarryResultAndFlag := fun _ _ _ =>
  ⟨encodesAs_class8 0x4#4 rfl,
    exec_flag_then_result (value := BitVec.toNat) rfl (toNat_addResult _ _) (carryFlag_eq _ _)⟩

/-- Settles O29: one subtraction with its no-borrow flag, its operands in either order. -/
theorem subtractResultAndNoBorrow : Obligations.SubtractResultAndNoBorrow := by
  intro x y s
  refine ⟨encodesAs_class8 0x5#4 rfl, encodesAs_class8 0x7#4 rfl, ?sub, ?reverse⟩
  case sub =>
    exact exec_flag_then_result (value := fun r => (r.toNat : Int)) rfl (toNat_subResult _ _) (noBorrowFlag_eq _ _)
  case reverse =>
    exact exec_flag_then_result (value := fun r => (r.toNat : Int)) rfl (toNat_subResult _ _) (noBorrowFlag_eq _ _)

/-- Settles O30: each shift writes the bit it moves out of its source and then the shifted source. -/
theorem shiftResultAndBitShiftedOut : Obligations.ShiftResultAndBitShiftedOut := by
  intro x y s
  rw [← s.shiftSource_eq x y]
  refine ⟨encodesAs_class8 0x6#4 rfl, encodesAs_class8 0xE#4 rfl, ?right, ?left⟩
  case right => exact exec_flag_then_result (value := BitVec.toNat) rfl (toNat_shrResult _) (shrFlag_eq _)
  case left => exact exec_flag_then_result (value := BitVec.toNat) rfl (toNat_shlResult _) (shlFlag_eq _)

/-- Settles O25: the load is one register write. -/
theorem loadImmediateWritesVx : Obligations.LoadImmediateWritesVx := fun x nn s =>
  ⟨toNat_encRegImm 0x6#4 x nn, _, rfl, s.writesOnly_setV x nn⟩

/-- Settles O26: the sum is one register write, and no flag is among what it writes. -/
theorem addImmediateWrapsWithoutFlag : Obligations.AddImmediateWrapsWithoutFlag := by
  intro x nn s
  obtain ⟨hV, hframe⟩ := s.writesOnly_setV x (addResult (s.getV x) nn)
  refine ⟨toNat_encRegImm 0x7#4 x nn, _, rfl, ?sum, fun k hk => (hV k).trans (if_neg hk), hframe⟩
  case sum => rw [hV, if_pos rfl, toNat_addResult]

/-- Settles O27: the copy and each bitwise combination are one register write. -/
theorem copyAndLogicWriteVxOnly : Obligations.CopyAndLogicWriteVxOnly := fun x _ s =>
  ⟨encodesAs_class8 0x0#4 rfl, encodesAs_class8 0x1#4 rfl, encodesAs_class8 0x2#4 rfl, encodesAs_class8 0x3#4 rfl,
    ⟨_, rfl, s.writesOnly_setV x _⟩, ⟨_, rfl, s.writesOnly_setV x _⟩,
    ⟨_, rfl, s.writesOnly_setV x _⟩, ⟨_, rfl, s.writesOnly_setV x _⟩⟩

end Sys2Proof.Machine
end

section
/-! SUPPORT. What the index loads write to I, and what the loads and stores through I move and leave (spec
43_index_loadstore.md). -/

namespace Sys2Proof.Machine

open Sys2Proof.Claims

/-! ### The words of class F -/

theorem encodesAs_classF {i : Instr} {x : Reg} (nn : Byte) (h : encode i = encRegImm 0xF#4 x nn) :
    EncodesAs i (0xF000 + nn.toNat + 0x100 * x.val) := by
  rw [EncodesAs, h, toNat_encRegImm, BitVec.toNat_ofNat]
  omega

/-! ### What is left alone (R250 to R255) -/

theorem State.changesOnlyI_setI (s : State) (v : Word) : ChangesOnlyI s (s.setI v) := ⟨rfl, fun _ => rfl⟩

theorem State.changesOnlyV_loadV (s : State) (x : Reg) (f : Nat → Byte) : ChangesOnlyV s (s.loadV x f) :=
  ⟨rfl, fun _ => rfl⟩

/-- A store leaves the bytes below and above those it writes (R73). -/
theorem State.sameBytesOutside_storeBytes (s : State) (a : Nat) (bytes : List Byte) :
    SameBytesOutside a bytes.length s (s.storeBytes a bytes) := by
  intro k hk
  cases hk with
  | inl hbelow => exact s.M.read_writeBytes_below a k bytes hbelow
  | inr habove => exact s.M.read_writeBytes_above a k bytes habove

/-! ### Operands (R251 to R253) -/

/-- The low nibble as a mask and as a remainder. -/
theorem toNat_and_nibble (a : Byte) : (a &&& 0xF).toNat = a.toNat % 16 := by
  rw [BitVec.toNat_and]
  exact Nat.and_two_pow_sub_one_eq_mod a.toNat 4

/-- A sum inside memory is held exactly by the 16 bits of I. -/
theorem State.toNat_ofNat_indexSum {s : State} {x : Reg} (h : s.I.toNat + (s.getV x).toNat ≤ 0xFFF) :
    (BitVec.ofNat 16 (s.indexSum x)).toNat = s.I.toNat + (s.getV x).toNat := by
  rw [BitVec.toNat_ofNat, State.indexSum]
  omega

theorem toNat_narrow8_of_lt {n : Nat} (h : n < 256) : (narrow8 n).toNat = n :=
  (toNat_narrow8 n).trans (Nat.mod_eq_of_lt h)

/-- After the three digits of `b` are stored at `a` the byte at `a + k` is digit `k`, the hundreds first (R253). -/
theorem State.readByte_storeBytes_bcdDigits {s : State} {a : Nat} (b : Byte) (hM : s.M.wf) (ha : a + 2 ≤ 0xFFF)
    (k : Fin 3) : (s.storeBytes a (bcdDigits b)).readByte (a + k.val) = (bcdDigits b)[k.val]'k.isLt :=
  s.M.read_writeBytes_inside a k.val (bcdDigits b) hM k.isLt (by rw [length_bcdDigits, Config.memSize]; omega)

/-! ### The statements -/

/-- Settles O40: with its last byte inside memory the store writes the digits, past it it raises. -/
theorem bcdStoresThreeDigits : Obligations.BcdStoresThreeDigits := by
  intro x s hM
  refine ⟨encodesAs_classF 0x33#8 rfl, fun h => ?stored, fun h => ?raised⟩
  case stored =>
    have hdigit := State.readByte_storeBytes_bcdDigits (s.getV x) hM h
    have hbyte := (s.getV x).isLt
    refine ⟨_, exec_bcd h, ?hundreds, ?tens, ?ones, s.sameBytesOutside_storeBytes s.I.toNat (bcdDigits (s.getV x)), rfl⟩
    case hundreds => exact (congrArg BitVec.toNat (hdigit 0)).trans (toNat_narrow8_of_lt (by omega))
    case tens => exact (congrArg BitVec.toNat (hdigit 1)).trans (toNat_narrow8_of_lt (by omega))
    case ones => exact (congrArg BitVec.toNat (hdigit 2)).trans (toNat_narrow8_of_lt (by omega))
  case raised => rw [exec_bcd_out h, State.raiseIn_eq_faulted]

/-- Settles O41: with its last byte inside memory the dump writes V0 to Vx, past it it raises. -/
theorem registerDumpStoresV0ToVx : Obligations.RegisterDumpStoresV0ToVx := by
  intro x s hM
  refine ⟨encodesAs_classF 0x55#8 rfl, fun h => ?stored, fun h => ?raised⟩
  case stored =>
    have houtside := s.sameBytesOutside_storeBytes s.I.toNat (s.dumpV x)
    rw [State.length_dumpV] at houtside
    exact ⟨_, exec_dump h, fun _ hk => State.readByte_storeBytes_dumpV hM h hk, houtside, rfl⟩
  case raised => rw [exec_dump_out h, State.raiseIn_eq_faulted]

/-- Settles O42: with its last byte inside memory the load writes V0 to Vx, past it it raises. -/
theorem registerLoadReadsV0ToVx : Obligations.RegisterLoadReadsV0ToVx := by
  intro x s
  refine ⟨encodesAs_classF 0x65#8 rfl, fun h => ?loaded, fun h => ?raised⟩
  case loaded => exact ⟨_, exec_load h, fun k => s.getV_loadV x k _, s.changesOnlyV_loadV x _⟩
  case raised => rw [exec_load_out h, State.raiseIn_eq_faulted]

/-- Settles O39: a sum inside memory is written to I, one past it raises with the sum as detail. -/
theorem addToIndexOrFault : Obligations.AddToIndexOrFault := by
  intro x s
  refine ⟨encodesAs_classF 0x1E#8 rfl, fun h => ?added, fun h => ?raised⟩
  case added => exact ⟨_, exec_addIndex h, State.toNat_ofNat_indexSum h, s.changesOnlyI_setI _⟩
  case raised => rw [exec_addIndex_out h, State.raiseIn_eq_faulted]

/-- Settles O38: each writes its address to I. -/
theorem indexLoads : Obligations.IndexLoads := by
  intro nnn x s
  refine ⟨toNat_encAddr 0xA#4 nnn, encodesAs_classF 0x29#8 rfl, ?load, ?glyph⟩
  case load => exact ⟨_, rfl, toNat_zext16 nnn, s.changesOnlyI_setI _⟩
  case glyph =>
    rw [toNat_and_nibble]
    exact ⟨_, rfl, toNat_glyphAddr (s.getV x), s.changesOnlyI_setI _⟩

end Sys2Proof.Machine
end

section
/-! SUPPORT. What the two instructions of the display write to the framebuffer and VF, and what they leave (spec
44_display.md). -/

namespace Sys2Proof.Machine

open Sys2Proof.Claims

/-! ### Drawing in the claims' words (R291, R292) -/

/-- The rows read from I land where the claims put the sprite's bits. -/
theorem spriteLandsOn_readBytes_iff (s : State) (x y : Reg) (n : Nat) (p : Fin 64) (q : Fin 32) :
    SpriteLandsOn (s.getV x).toNat (s.getV y).toNat (s.M.readBytes s.dataBase n) p q ↔ SpriteBitOn s x y n p q := by
  simp only [SpriteLandsOn, RowLandsOn, SpriteBitOn, Memory.getElem_readBytes, Memory.length_readBytes, Fin.ext_iff,
    Fin.val_ofNat]
  constructor
  · rintro ⟨r, hr, c, hc, hbit, hp, hq⟩
    exact ⟨r, c, hr, hc, hbit, hp, hq⟩
  · rintro ⟨r, c, hr, hc, hbit, hp, hq⟩
    exact ⟨r, hr, c, hc, hbit, hp, hq⟩

/-- A sprite of at most 15 rows meets no pixel twice: it is XORed onto the screen, and collides exactly where one of its
bits meets a set pixel. -/
theorem State.drawing_spec (s : State) (x y : Reg) {n : Nat} (hn : n ≤ 15) :
    (∀ p q, (s.drawing x y n).1.pixel p q = true ↔ ¬(s.FB.pixel p q = true ↔ SpriteBitOn s x y n p q)) ∧
    ((s.drawing x y n).2 = true ↔ ∃ p q, SpriteBitOn s x y n p q ∧ s.FB.pixel p q = true) := by
  have h := drawSprite_spec (s.getV x).toNat (s.getV y).toNat (s.M.readBytes s.dataBase n) (s.FB, false)
    (by rw [Memory.length_readBytes]; omega)
  simp only [spriteLandsOn_readBytes_iff, Bool.false_eq_true, false_or] at h
  exact h

theorem flagByte_eq_one_iff (c : Bool) : flagByte c = 1 ↔ c = true := by cases c <;> decide

/-- `t` is `s` after the sprite of `n` rows at I is drawn at (Vx, Vy), with the operands read in `s`. -/
structure DrawnFrom (x y : Reg) (n : Nat) (s t : State) : Prop where
  pixel : ∀ p q, t.FB.pixel p q = true ↔ ¬(s.FB.pixel p q = true ↔ SpriteBitOn s x y n p q)
  flag : t.getV vF = 0 ∨ t.getV vF = 1
  collision : t.getV vF = 1 ↔ ∃ p q, SpriteBitOn s x y n p q ∧ s.FB.pixel p q = true
  register : ∀ k, k ≠ vF → t.getV k = s.getV k
  rest : t = { s with FB := t.FB, V := t.V }

/-- A draw whose rows all lie inside memory (R291, R293). -/
theorem exec_draw_drawnFrom {s : State} {x y : Reg} {n : Nat} (hn : n ≤ 15)
    (hrows : n = 0 ∨ s.I.toNat + n - 1 ≤ 0xFFF) :
    ∃ t, exec (.opDXYN x y n) s = .next t ∧ DrawnFrom x y n s t := by
  obtain ⟨hpixel, hcollision⟩ := s.drawing_spec x y hn
  have hVF : ∀ f c, ((s.setFB f).setV vF (flagByte c)).getV vF = flagByte c := fun f c => by
    rw [State.getV_setV, if_pos rfl]
  refine ⟨_, exec_draw hrows, hpixel, ?flag, ?collision, fun k hk => ?register, rfl⟩
  case flag => rw [hVF]; exact flagByte_eq_zero_or_one _
  case collision => rw [hVF, flagByte_eq_one_iff, hcollision]
  case register => exact ((s.setFB _).getV_setV vF k _).trans (if_neg hk)

namespace DrawnFrom

variable {x y : Reg} {n : Nat} {s t u : State}

theorem sameBytes (h : DrawnFrom x y n s t) : SameBytes s t := by
  intro a
  rw [h.rest]
  rfl

/-- I is as before. -/
theorem index_eq (h : DrawnFrom x y n s t) : t.I = s.I := by
  rw [h.rest]

/-- A draw that does not write its own coordinates leaves its sprite on the same pixels. -/
theorem spriteBitOn_iff (h : DrawnFrom x y n s t) (hx : x ≠ vF) (hy : y ≠ vF) (p : Fin 64) (q : Fin 32) :
    SpriteBitOn t x y n p q ↔ SpriteBitOn s x y n p q := by
  simp only [SpriteBitOn, h.register x hx, h.register y hy, h.index_eq, h.sameBytes _]

/-- XOR by one set of pixels twice is no change. -/
theorem frame_restored (hst : DrawnFrom x y n s t) (htu : DrawnFrom x y n t u) (hx : x ≠ vF) (hy : y ≠ vF) :
    u.FB = s.FB := by
  refine Frame.ext_pixel _ _ fun p q => Bool.eq_iff_iff.2 ?_
  rw [htu.pixel, hst.pixel, hst.spriteBitOn_iff hx hy]
  by_cases hbit : SpriteBitOn s x y n p q <;> simp [hbit]

/-- After the first draw a pixel under the sprite is set exactly when it was blank before. -/
theorem second_collision_iff (hst : DrawnFrom x y n s t) (htu : DrawnFrom x y n t u) (hx : x ≠ vF) (hy : y ≠ vF) :
    u.getV vF = 1 ↔ ∃ p q, SpriteBitOn s x y n p q ∧ s.FB.pixel p q = false := by
  rw [htu.collision]
  refine exists_congr fun p => exists_congr fun q => ?_
  rw [hst.spriteBitOn_iff hx hy, and_congr_right_iff]
  intro hbit
  rw [hst.pixel, iff_true_right hbit, Bool.not_eq_true]

end DrawnFrom

/-! ### The statements -/

theorem encodesAs_draw (x y : Reg) {n : Nat} (hn : n ≤ 15) :
    EncodesAs (.opDXYN x y n) (0xD000 + 0x100 * x.val + 0x10 * y.val + n) := by
  rw [EncodesAs, encode, toNat_encRegReg, BitVec.toNat_ofNat, BitVec.toNat_ofNat,
    Nat.mod_eq_of_lt (show n < 2 ^ 4 by omega)]

/-- Settles O46: with its last row inside memory the draw is the XOR of the sprite, past it it raises. -/
theorem drawXorsTheSpriteAndReportsCollision : Obligations.DrawXorsTheSpriteAndReportsCollision := by
  intro x y n s hn
  refine ⟨encodesAs_draw x y hn, fun hrows => ?drawn, fun ⟨hn1, hout⟩ => ?raised⟩
  case drawn =>
    obtain ⟨t, ht, h⟩ := exec_draw_drawnFrom (x := x) (y := y) hn hrows
    refine ⟨t, ht, h.pixel, h.collision.2, fun hblank => ?_, h.register, h.rest, h.sameBytes⟩
    refine h.flag.resolve_right fun hone => ?_
    obtain ⟨p, q, hbit, hset⟩ := h.collision.1 hone
    exact Bool.false_ne_true ((hblank p q hbit).symm.trans hset)
  case raised => rw [exec_draw_out hn1 hout, State.raiseIn_eq_faulted]

/-- Settles O47: the second draw reads the operands of the first, so it XORs the same pixels. -/
theorem drawingTwiceRestoresTheScreen : Obligations.DrawingTwiceRestoresTheScreen := by
  intro x y n s hn hx hy hrows
  obtain ⟨t, ht, hst⟩ := exec_draw_drawnFrom (x := x) (y := y) hn hrows
  obtain ⟨u, hu, htu⟩ := exec_draw_drawnFrom (x := x) (y := y) hn (hst.index_eq ▸ hrows)
  exact ⟨t, u, ht, hu, hst.frame_restored htu hx hy, hst.second_collision_iff htu hx hy⟩

/-- Settles O45: the clear writes the blank framebuffer. -/
theorem clearBlanksEveryPixel : Obligations.ClearBlanksEveryPixel :=
  fun _ => ⟨rfl, _, rfl, Frame.pixel_blank, rfl, fun _ => rfl⟩

end Sys2Proof.Machine
end

section
/-! SUPPORT. What the key skips, the key wait and the timer accesses do and leave, and that a waiting core stays as it is
until a key-down (spec 45_timers_keypad.md, 70_reset_and_hazards.md R423). -/

namespace Sys2Proof.Machine

open Sys2Proof.Claims

/-! ### The key skips (R320, R321) -/

theorem encodesAs_classE {i : Instr} {x : Reg} (nn : Byte) (h : encode i = encRegImm 0xE#4 x nn) :
    EncodesAs i (0xE000 + nn.toNat + 0x100 * x.val) := by
  rw [EncodesAs, h, toNat_encRegImm, BitVec.toNat_ofNat]
  omega

/-- A skip on a pressed key (R320). -/
theorem State.pc_skipIf_pressed (s : State) (b : Bool) :
    (s.skipIf (b == true)).pc = if b = true then s.pc + 2 else s.pc := by
  rw [State.pc_skipIf, beq_true]

/-- A skip on a key that is not pressed (R321). -/
theorem State.pc_skipIf_released (s : State) (b : Bool) :
    (s.skipIf (b == false)).pc = if b = true then s.pc else s.pc + 2 := by
  cases b <;> rfl

/-! ### The key wait (R323) -/

/-- With a pending key FX0A writes its number to Vx, consumes it, and changes nothing else. -/
theorem exec_keyWait_takes {s : State} {k : Key} (x : Reg) (hP : s.PENDING = some k) :
    ∃ t, exec (.opFX0A x) s = .next t ∧ (t.getV x).toNat = k.val ∧ (∀ j, j ≠ x → t.getV j = s.getV j) ∧
      t = { s with V := t.V, PENDING := none } ∧ SameBytes s t := by
  have hV : ∀ j, ((s.setV x (narrow8 k.val)).setPENDING none).getV j = if j = x then narrow8 k.val else s.getV j :=
    fun j => s.getV_setV x j _
  refine ⟨_, exec_keyWait x hP, ?number, fun j hj => (hV j).trans (if_neg hj), rfl, fun _ => rfl⟩
  case number => rw [hV, if_pos rfl, toNat_narrow8_of_lt (by omega)]

section
variable {x : Reg} {s : State} (hw : FetchesWord s (encode (.opFX0A x)))
include hw

theorem step_of_keyWait : step s = exec (.opFX0A x) s.advance := stepRunsTheDecodedInstruction s _ rfl hw

/-- With no pending key the rewind undoes the fetch advance. -/
theorem step_of_waiting (hP : s.PENDING = none) : step s = .next s := by
  have hpc : s.advance.pc - 2 = s.pc := BitVec.add_sub_cancel s.pc 2
  rw [step_of_keyWait hw, exec_keyWait_none (s := s.advance) x hP, hpc]
  rfl

theorem stepReport_of_waiting (hP : s.PENDING = none) : stepReport s = .waiting s.pc := by
  obtain ⟨hf, hword⟩ := fetchesWord_iff.1 hw
  have hwaits : waitsForKey (.opFX0A x) s.advance = true := (waitsForKey_iff _ _).2 ⟨⟨x, rfl⟩, hP⟩
  rw [stepReport_of_instr hf (hword ▸ decodeWord_encode rfl),
    reportOf_of_no_fault _ _ (exec_keyWait_none (s := s.advance) x hP) hf.notHalted, if_pos hwaits]

/-- The step after a key-down completes (R323, R363). -/
theorem step_of_keyDown (k : Key) :
    ∃ u, step (s.keyDown k) = .next u ∧ (u.getV x).toNat = k.val ∧ (∀ j, j ≠ x → u.getV j = s.getV j) ∧
      u.PENDING = none ∧ u.pc = s.pc + 2 := by
  obtain ⟨u, hu, hx, hothers, hrest, -⟩ := exec_keyWait_takes (s := (s.keyDown k).advance) (k := k) x rfl
  have hstep : step (s.keyDown k) = exec (.opFX0A x) (s.keyDown k).advance := step_of_keyWait hw
  exact ⟨u, hstep.trans hu, hx, hothers, by rw [hrest], by rw [hrest]; rfl⟩

end

/-! ### A waiting core under transactions with no key-down (R369, R423) -/

/-- What the core fetches is nothing the host writes. -/
theorem ChangesOnlyHostFields.fetchesWord {s t : State} {w : Word} (h : ChangesOnlyHostFields s t)
    (hw : FetchesWord s w) : FetchesWord t w := by
  unfold ChangesOnlyHostFields at h
  rw [h]
  exact hw

/-- A key-down is the only host operation that records a pending key (R363, R364). -/
theorem PENDING_applyHostOp_of_not_keyDown {op : HostOp} (h : isKeyDown (.host op) = false) (s : State) :
    (applyHostOp op s).PENDING = s.PENDING := by
  rw [PENDING_applyHostOp]
  cases op with
  | keyDown k => simp [isKeyDown] at h
  | _ => rfl

theorem applyTransaction_of_waiting {x : Reg} {s : State} {e : Transaction}
    (hw : FetchesWord s (encode (.opFX0A x))) (hP : s.PENDING = none) (he : isKeyDown e = false) :
    ∃ t, applyTransaction e s = .next t ∧ ChangesOnlyHostFields s t ∧ t.PENDING = none := by
  cases e with
  | step => exact ⟨s, step_of_waiting hw hP, .refl s, hP⟩
  | host op => exact ⟨_, rfl, applyHostOp_frame op s, (PENDING_applyHostOp_of_not_keyDown he s).trans hP⟩

/-- By induction on the run: each transaction leaves the core waiting at the same instruction. -/
theorem runTransactions_of_waiting {x : Reg} {s : State} {es : List Transaction}
    (hw : FetchesWord s (encode (.opFX0A x))) (hP : s.PENDING = none) (hes : ∀ e ∈ es, isKeyDown e = false) :
    ∃ t, runTransactions es s = .next t ∧ ChangesOnlyHostFields s t ∧ t.PENDING = none := by
  induction es generalizing s with
  | nil => exact ⟨s, rfl, .refl s, hP⟩
  | cons e rest ih =>
    obtain ⟨he, hrest⟩ := List.forall_mem_cons.1 hes
    obtain ⟨t, ht, hst, hPt⟩ := applyTransaction_of_waiting hw hP he
    obtain ⟨u, hu, htu, hPu⟩ := ih (hst.fetchesWord hw) hPt hrest
    refine ⟨u, ?_, hst.trans htu, hPu⟩
    simp only [runTransactions, ht, hu]

/-- Steps alone leave a state that the step leaves. -/
theorem runTransactions_replicate_step {s : State} (h : step s = .next s) (n : Nat) :
    runTransactions (List.replicate n .step) s = .next s := by
  induction n with
  | zero => rfl
  | succ n ih => simp only [List.replicate_succ, runTransactions, applyTransaction, h, ih]

/-! ### The statements -/

/-- Settles O51: the run leaves the core waiting at the same instruction, and the step after a key-down takes the key. -/
theorem keyWaitNeedsAKeyDown : Obligations.KeyWaitNeedsAKeyDown := by
  intro x s hw hP
  refine ⟨runTransactions_replicate_step (step_of_waiting hw hP), fun es hes => ?_⟩
  obtain ⟨t, ht, hst, hPt⟩ := runTransactions_of_waiting hw hP hes
  have hwt := hst.fetchesWord hw
  have hframe : t = { s with DT := t.DT, ST := t.ST, KEY := t.KEY, rndSupply := t.rndSupply } := by
    unfold ChangesOnlyHostFields at hst
    rwa [hPt, ← hP] at hst
  have hpc : t.pc = s.pc := by rw [hframe]
  have hV : ∀ j, t.getV j = s.getV j := fun j => by rw [hframe]; rfl
  refine ⟨t, ht, hframe, hpc ▸ stepReport_of_waiting hwt hPt, fun k => ?_⟩
  obtain ⟨u, hu, hx, hothers, hPu, hpcu⟩ := step_of_keyDown hwt k
  exact ⟨u, hu, hx, fun j hj => (hothers j hj).trans (hV j), hPu, hpc ▸ hpcu⟩

/-- Settles O50: by whether a key is pending. -/
theorem keyWaitConsumesThePendingKey : Obligations.KeyWaitConsumesThePendingKey := fun x _ =>
  ⟨encodesAs_classF 0x0A#8 rfl, fun _ hP => exec_keyWait_takes x hP, exec_keyWait_none x,
    fun hw hP => ⟨step_of_waiting hw hP, stepReport_of_waiting hw hP⟩⟩

/-- Settles O48: a register that names a key makes each a skip on that key's level, any other makes each raise. -/
theorem keySkipsReadTheKeyLevel : Obligations.KeySkipsReadTheKeyLevel := by
  intro x s
  refine ⟨encodesAs_classE 0x9E#8 rfl, encodesAs_classE 0xA1#8 rfl, fun k hk => ⟨?pressed, ?released⟩, fun h => ?raised⟩
  case pressed =>
    exact ⟨_, congrArg Host.Outcome.next (skipIfKey_valid hk _ true), s.pc_skipIf_pressed _, s.changesOnlyPc_skipIf _⟩
  case released =>
    exact ⟨_, congrArg Host.Outcome.next (skipIfKey_valid hk _ false), s.pc_skipIf_released _, s.changesOnlyPc_skipIf _⟩
  case raised =>
    exact ⟨congrArg Host.Outcome.next (skipIfKey_invalid h _ true),
      congrArg Host.Outcome.next (skipIfKey_invalid h _ false)⟩

/-- Settles O49: each is one write, of Vx or of a timer. -/
theorem timerReadsAndWrites : Obligations.TimerReadsAndWrites := fun x s =>
  ⟨encodesAs_classF 0x07#8 rfl, encodesAs_classF 0x15#8 rfl, encodesAs_classF 0x18#8 rfl,
    ⟨_, rfl, s.writesOnly_setV x s.DT⟩, ⟨_, rfl, rfl, fun _ => rfl⟩, ⟨_, rfl, rfl, fun _ => rfl⟩⟩

end Sys2Proof.Machine
end

section
/-! SUPPORT. Which fault a step latches: the table of R350 to R353 decides it (spec 60_exceptions.md section 1). -/

namespace Sys2Proof.Machine

open Sys2Proof.Claims

/-- The table reads I, sp and the registers, and the fetch advance writes none of them (R134). -/
theorem faultCondition_advance (i : Instr) (s : State) : faultCondition i s.advance = faultCondition i s := rfl

/-- Where the table gives a fault the instruction raises it (R139). -/
theorem exec_of_faultCondition {i : Instr} {s : State} {kind : FaultKind} {detail : Word}
    (hc : faultCondition i s = some (kind, detail)) : exec i s = .next (s.raiseIn i kind detail) := by
  cases i <;> simp only [faultCondition, Option.ite_none_right_eq_some, Option.some.injEq, Prod.mk.injEq,
    reduceCtorEq] at hc <;> obtain ⟨h, rfl, rfl⟩ := hc
  case op00EE => exact exec_return_empty (congrArg Fin.val h)
  case op2NNN nnn => exact exec_call_full nnn (congrArg Fin.val h)
  case opDXYN => exact exec_draw_out h.1 h.2
  case opEX9E => exact congrArg Host.Outcome.next (skipIfKey_invalid h _ true)
  case opEXA1 => exact congrArg Host.Outcome.next (skipIfKey_invalid h _ false)
  case opFX1E => exact exec_addIndex_out h
  case opFX33 => exact exec_bcd_out h
  case opFX55 => exact exec_dump_out h
  case opFX65 => exact exec_load_out h

/-- Where the table gives no fault the instruction leaves the latch as it is: raising the table's fault is the only effect
that writes it. -/
theorem Effect.FAULT_eq {i : Instr} {s t : State} (he : Effect i s t) (hc : faultCondition i s = none) :
    t.FAULT = s.FAULT := by
  cases he with
  | fault h => simp [hc] at h
  | _ => simp

/-- The record a faulting instruction latches from an unlatched core: the table's kind and detail, with its own address and
word (R139). -/
theorem FAULT_of_exec {i : Instr} {s t : State} (hF : s.FAULT = none) (h : exec i s = .next t) :
    t.FAULT = (faultCondition i s).map fun kd => ⟨kd.1, s.pc - 2, encode i, kd.2⟩ := by
  rcases hc : faultCondition i s with _ | ⟨kind, detail⟩
  · exact ((Effect.of_exec h).FAULT_eq hc).trans hF
  · rw [exec_of_faultCondition hc] at h
    cases h
    rfl

/-- A step that fetches an instruction latches the table's fault at the fetched address and word, or none. -/
theorem FAULT_of_step_of_instr {s t : State} {i : Instr} (hf : s.Fetches) (hd : decodeWord s.fetchWord = some i)
    (h : exec i s.advance = .next t) :
    t.FAULT = (faultCondition i s).map fun kd => ⟨kd.1, s.pc, s.fetchWord, kd.2⟩ := by
  have hpc : s.advance.pc - 2 = s.pc := BitVec.add_sub_cancel s.pc 2
  rw [FAULT_of_exec (s := s.advance) hf.notHalted h, faultCondition_advance, hpc, (encode_of_decodeWord hd).1]

theorem wordAtPc_eq_fetchWord (s : State) : wordAtPc s = s.fetchWord := rfl

/-- Settles O13: by the phases of the step that are left to a core neither halted nor idle. -/
theorem stepLatchesExactlyTheTabledFault : Obligations.StepLatchesExactlyTheTabledFault := by
  refine ⟨rfl, rfl, rfl, rfl, fun s hF hend => ?_⟩
  obtain ⟨t, ht⟩ := everyStepAnswersANextState s
  refine ⟨t, ht, ?_⟩
  obtain ⟨hne, -⟩ | ⟨-, hidle, -⟩ | ⟨-, -, hpc, rfl⟩ | ⟨hf, hd, rfl⟩ | ⟨hf, i, hd, hi⟩ := step_cases ht
  · exact absurd hF hne
  · exact absurd hend (Nat.not_lt_of_le hidle)
  · rw [if_pos hpc]
    rfl
  · rw [if_neg (Nat.not_lt_of_le hf.inMemory), wordAtPc_eq_fetchWord, hd]
    exact hF
  · rw [if_neg (Nat.not_lt_of_le hf.inMemory), wordAtPc_eq_fetchWord, hd]
    exact FAULT_of_step_of_instr hf hd hi

end Sys2Proof.Machine
end

section
/-! SUPPORT. What the operations and the reads of the host change and return (spec 60_exceptions.md section 6). -/

namespace Sys2Proof.Machine

/-! ### The ticks (R361, R362) -/

/-- A timer after one tick: down by 1, and 0 stays 0. -/
def tickedDown (b : Byte) : Byte := if b.toNat > 0 then b - 1 else b

theorem toNat_tickedDown (b : Byte) : (tickedDown b).toNat = b.toNat - 1 := by
  unfold tickedDown
  split <;> bv_omega

theorem State.delayTick_eq (s : State) : s.delayTick = s.setDT (tickedDown s.DT) := (apply_ite s.setDT _ _ _).symm

theorem State.soundTick_eq (s : State) : s.soundTick = s.setST (tickedDown s.ST) := (apply_ite s.setST _ _ _).symm

/-! ### The keypad (R363, R364) -/

/-- A key reads the level last written to it. -/
theorem State.getElem_KEY_setKEY (s : State) (k j : Key) (b : Bool) :
    (s.setKEY k b).KEY[j] = if j = k then b else s.KEY[j] := by
  simp [Vector.getElem_set, Fin.ext_iff, eq_comm]

/-! ### The status (R367) -/

theorem State.status_of_fault {s : State} {r : FaultRecord} (h : s.FAULT = some r) : s.status = .halted r := by
  rw [State.status, h]

theorem State.status_of_no_fault {s : State} (h : s.FAULT = none) :
    s.status = if s.idle then .idle else .running := by
  rw [State.status, h]

/-! ### The statements -/

/-- Settles O19: a host operation writes only fields of which the invariant says nothing. -/
theorem hostOperationsKeepTheInvariant : Obligations.HostOperationsKeepTheInvariant := fun op _ h => h.applyHostOp op

/-- Settles O52: each operation is one write, or for a key-down two. -/
theorem hostTicksAndKeys : Obligations.HostTicksAndKeys := fun s k =>
  ⟨⟨tickedDown s.DT, s.delayTick_eq, toNat_tickedDown s.DT⟩,
    ⟨tickedDown s.ST, s.soundTick_eq, toNat_tickedDown s.ST⟩,
    ⟨_, rfl, fun j => s.getElem_KEY_setKEY k j true⟩,
    ⟨_, rfl, fun j => s.getElem_KEY_setKEY k j false⟩⟩

/-- Settles O53: the two reads are fields, and the status goes by the latch and then by whether the core is idle. -/
theorem hostReads : Obligations.HostReads := fun s =>
  ⟨rfl, rfl, fun _ h => State.status_of_fault h,
    fun h => (State.status_of_no_fault h).trans (if_congr s.idle_iff rfl rfl)⟩

end Sys2Proof.Machine
end

section
/-! SUPPORT. What reset places in memory and what it clears (spec 70_reset_and_hazards.md section 1). -/

namespace Sys2Proof.Machine

/-! ### Memory before the ROM is placed (R401, R402) -/

/-- Byte r of glyph d stands at 5d + r (R90). -/
theorem Memory.unlisted_glyph (m : Memory) (d : Fin 16) (r : Fin 5) : m.unlisted (5 * d.val + r.val) = m.font[d][r] := by
  have hd : (5 * d.val + r.val) / 5 = d.val := by omega
  have hr : (5 * d.val + r.val) % 5 = r.val := by omega
  have hfont : 5 * d.val + r.val < 80 := by omega
  simp [Memory.unlisted, hfont, hd, hr]

theorem Memory.unlisted_above_font (m : Memory) {a : Nat} (h : 0x50 ≤ a) : m.unlisted a = 0 :=
  dif_neg (Nat.not_lt_of_le h)

/-! ### The loaded state (R401 to R403) -/

/-- Outside the ROM the loaded state's memory is as reset left it. -/
theorem readByte_load_outside (quirk : ShiftQuirk) (font : Font) {rom : List Byte} {a : Nat}
    (h : a < 0x200 ∨ 0x200 + rom.length ≤ a) :
    (State.load quirk font rom).readByte a = (Memory.mk font []).unlisted a :=
  h.elim (Memory.read_writeBytes_below _ _ a rom) (Memory.read_writeBytes_above _ _ a rom)

/-- The ROM stands at 0x200 in order (R403). -/
theorem readByte_load_rom (quirk : ShiftQuirk) (font : Font) {rom : List Byte} (hlen : rom.length ≤ 3584) {a : Nat}
    (h : a < rom.length) : (State.load quirk font rom).readByte (0x200 + a) = rom[a] :=
  Memory.read_writeBytes_inside _ 0x200 a rom (Memory.wf_fresh font) h
    (show 0x200 + rom.length ≤ 4096 by omega)

/-! ### Acceptance (R404) -/

theorem hostReset_accepts (quirk : ShiftQuirk) (font : Font) {rom : List Byte} (hne : 1 ≤ rom.length)
    (hlen : rom.length ≤ 3584) : hostReset quirk font (some rom) = .next (State.load quirk font rom) :=
  if_neg (not_or.2 ⟨Nat.ne_of_gt hne, Nat.not_lt_of_le hlen⟩)

/-! ### The statements -/

/-- Settles O18: an accepted ROM is loaded, and a loaded state has the invariant. -/
theorem loadedStateHasTheInvariant : Obligations.LoadedStateHasTheInvariant := by
  intro quirk font rom s h
  obtain ⟨image, hlen, rfl⟩ := load_of_hostReset h
  exact load_inv quirk font hlen

/-- Settles O54: the loaded state is the one reset answers; FONT lies below the ROM and is not overwritten. -/
theorem resetPlacesFontAndRom : Obligations.ResetPlacesFontAndRom := by
  intro quirk font rom hne hlen
  refine ⟨State.load quirk font rom, hostReset_accepts quirk font hne hlen, fun d r => ?font,
    fun a h => readByte_load_rom quirk font hlen h, fun a ha h => ?zero, rfl, rfl,
    fun k => Vector.getElem_replicate k.isLt, rfl, rfl,
    fun k => Vector.getElem_replicate k.isLt, rfl, rfl, Frame.pixel_blank,
    fun k => Vector.getElem_replicate k.isLt, rfl, rfl, rfl⟩
  case font =>
    rw [readByte_load_outside quirk font (by omega)]
    exact Memory.unlisted_glyph _ d r
  case zero =>
    rw [readByte_load_outside quirk font (by omega)]
    exact Memory.unlisted_above_font _ ha

/-- Settles O55: an unreadable image and one of a bad length are the two refusals of reset. -/
theorem resetRefusesABadRom : Obligations.ResetRefusesABadRom := fun _ _ => ⟨rfl, fun _ h => if_pos h⟩

end Sys2Proof.Machine
end

section
/-! SUPPORT. The draw of CXNN from the random supply, and the invariant of a machine that holds no ROM yet (spec
42_alu_shift.md R216, 60_exceptions.md R368, 70_reset_and_hazards.md section 1). -/

namespace Sys2Proof.Machine

open Sys2Proof.Claims

/-! ### Bytes inside a mask (R216) -/

theorem and_and_not_mask (b m : Byte) : (b &&& m) &&& ~~~m = 0 := by
  rw [BitVec.and_assoc, BitVec.and_not_self]
  exact BitVec.and_zero

/-- A byte with no bit outside the mask is its own masked value. -/
theorem and_mask_of_inside {b m : Byte} (h : b &&& ~~~m = 0) : b &&& m = b := by
  calc b &&& m
    _ = b &&& m ||| b &&& ~~~m := by rw [h, show (0 : Byte) = 0#8 from rfl, BitVec.or_zero]
    _ = b &&& (m ||| ~~~m) := BitVec.and_or_distrib_left.symm
    _ = b := by rw [BitVec.or_not_self, BitVec.and_allOnes]

/-! ### The draw (R216, R368) -/

theorem State.getV_setV_same (s : State) (x : Reg) (b : Byte) : (s.setV x b).getV x = b :=
  (s.getV_setV x x b).trans (if_pos rfl)

/-- A draw moves the supply and the count of draws on and nothing else. -/
theorem State.consumeDraw_frame (s : State) :
    s.consumeDraw = { s with rndSupply := s.consumeDraw.rndSupply, rndCount := s.consumeDraw.rndCount } := by
  unfold State.consumeDraw
  split <;> rfl

/-- Drawing the one supplied byte leaves the machine as it was before the supply. -/
theorem State.consumeDraw_supplyRandom {s : State} (b : Byte) (h : s.rndSupply = []) :
    (s.supplyRandom b).consumeDraw = s := by
  simp only [State.consumeDraw, State.supplyRandom, h, List.nil_append]
  rw [← h]

theorem exec_random (x : Reg) (nn : Byte) (s : State) :
    exec (.opCXNN x nn) s = .next (s.consumeDraw.setV x (s.drawnByte &&& nn)) := rfl

/-- With nothing supplied before, CXNN masks the supplied byte and is otherwise the write of Vx alone. -/
theorem exec_random_supplied {s : State} (x : Reg) (nn b : Byte) (h : s.rndSupply = []) :
    exec (.opCXNN x nn) (s.supplyRandom b) = .next (s.setV x (b &&& nn)) := by
  rw [exec_random, State.consumeDraw_supplyRandom b h, s.drawnByte_supplyRandom b h]

/-! ### Reset with no ROM (R401, R402) -/

/-- The reset state with no ROM is the one an empty ROM would be loaded into. -/
theorem State.load_nil (quirk : ShiftQuirk) (font : Font) : State.load quirk font [] = State.resetWith quirk font := rfl

theorem resetWith_inv (quirk : ShiftQuirk) (font : Font) : (State.resetWith quirk font).Inv :=
  State.load_nil quirk font ▸ load_inv quirk font (Nat.zero_le _)

/-! ### The statements -/

/-- Settles O31: CXNN masks the drawn byte, and a byte inside the mask passes it unchanged. -/
theorem randomResultStaysInTheMask : Obligations.RandomResultStaysInTheMask := by
  intro x nn s
  have hVx := s.consumeDraw.getV_setV_same x (s.drawnByte &&& nn)
  refine ⟨toNat_encRegImm 0xC#4 x nn, fun r hr h => ?admitted, _, exec_random x nn s, ⟨s.drawnByte, hVx⟩, ?inside,
    fun k hk => ?others, ?frame, fun a => ?bytes⟩
  case admitted => exact ⟨_, exec_random_supplied x nn r h, (s.getV_setV_same x _).trans (and_mask_of_inside hr)⟩
  case inside => rw [hVx, and_and_not_mask]
  case others => rw [State.getV_setV, if_neg hk, State.getV, State.getV, State.V_consumeDraw]
  case frame => rw [s.consumeDraw_frame]; rfl
  case bytes => exact congrArg (Memory.read · a) s.M_consumeDraw

/-- Settles O32: CXNN draws the one byte supplied, which leaves the supply and the count as they were before it. -/
theorem everySuppliedByteIsDrawnOnce : Obligations.EverySuppliedByteIsDrawnOnce := fun x nn rnd s h =>
  ⟨_, exec_random_supplied x nn rnd h, s.getV_setV_same x (rnd &&& nn), h, rfl⟩

/-- Settles O17: the state after reset is the loaded state of an empty ROM. -/
theorem resetHasTheInvariant : Obligations.ResetHasTheInvariant := ⟨resetWith_inv, resetWith_inv _ _⟩

end Sys2Proof.Machine
end
